-- ==== Sys2Proof/Word.lean ====
section
/-! DEFINITION. The word types of the block (spec 00_scope R4, R5; 30_encoding R50): a 2-bit PinState, the 4-bit
transition code, the 8-bit byte and the 16-bit counter word. Only what the spec treats as bits is a bit vector. -/

namespace Sys2Proof

/-- A PinState `b1 b0` (R51): bit 1 is `PINS[1]`, the left digit; bit 0 is `PINS[0]`, the right digit. -/
abbrev PinState := BitVec 2

/-- A `TRANS` code (R52): bits 3:2 are `prev`, bits 1:0 are `cur`. -/
abbrev TransCode := BitVec 4

/-- A byte of the bus transport (R31); a `CMD` word is one byte (R53). -/
abbrev Byte := BitVec 8

/-- The width of `COUNT` and `LATCH` (R13, R14): 16 bits, two's complement, wrapping. -/
abbrev Word := BitVec 16

end Sys2Proof
end

