-- ==== Sys2Proof/Syntax.lean ====
section
/-! DEFINITION. The syntax: `Instr`, one constructor for each of the 25 rows of spec/opcode_table.json (sixteen `TRANS`
codes, `READ_RESET`, eight patterns of `IGNORE`), and `AgentStep`, the lines of the spec's trace notation
(30_encoding R60), with the pseudo-steps of R61. -/

namespace Sys2Proof

/-- The rows of spec/opcode_table.json. `q<Class><prev>_<cur>` is the `TRANS` row `Q_<CLASS>_<prev>_<cur>` (R56).
`ignore<pattern>` is the row of `IGNORE` whose bit pattern the name spells (R57); its operand is the whole command byte
(R53: "there is no operand field", the free bits `x` are either value), except where the pattern fixes every bit. -/
inductive Instr where
  | qHold00_00
  | qDec00_01
  | qInc00_10
  | qSkip00_11
  | qInc01_00
  | qHold01_01
  | qSkip01_10
  | qDec01_11
  | qDec10_00
  | qSkip10_01
  | qHold10_10
  | qInc10_11
  | qSkip11_00
  | qInc11_01
  | qDec11_10
  | qHold11_11
  | readReset
  | ignore1xxxxxxx (b : Byte)
  | ignore00xxxxxx (b : Byte)
  | ignore010xxxxx (b : Byte)
  | ignore0110xxxx (b : Byte)
  | ignore01111xxx (b : Byte)
  | ignore011101xx (b : Byte)
  | ignore0111000x (b : Byte)
  | ignore01110011
deriving DecidableEq, Repr, Inhabited

/-- The three agents that take steps (R7): the decoder, the exchange agent, the environment. -/
inductive Agent where
  | decoder
  | exchange
  | environment
deriving DecidableEq, Repr, Inhabited

/-- The step names of R7 with their labels, one for each line of the trace notation of R60. `RESET p`, which is taken
once and first (R170), is no line here: it is the start state `State.resetAt`. -/
inductive AgentStep where
  | ePin (v : PinState)
  | eRx (b : Byte)
  | eTx
  | dEnter
  | dCommit
  | xFetch
  | xMask
  | xTake
  | xUnmask
  | xSendHi
  | xSendLo
deriving DecidableEq, Repr, Inhabited

/-- Which agent takes a step (R7). -/
def AgentStep.agent : AgentStep → Agent
  | .ePin _ | .eRx _ | .eTx => .environment
  | .dEnter | .dCommit => .decoder
  | .xFetch | .xMask | .xTake | .xUnmask | .xSendHi | .xSendLo => .exchange

/-- Pseudo-step `EDGE v` (R61): one level change, served at once. -/
def pseudoEdge (v : PinState) : List AgentStep := [.ePin v, .dEnter, .dCommit]

/-- Pseudo-step `CS` (R61): the critical section alone. -/
def pseudoCs : List AgentStep := [.xMask, .xTake, .xUnmask]

/-- Pseudo-step `REQ b` (R61); `REQ 0x72`, also written `READ`, is one whole exchange with nothing interleaved. -/
def pseudoReq (b : Byte) : List AgentStep :=
  if b = 0x72#8 then [.eRx b, .xFetch] ++ pseudoCs ++ [.xSendHi, .xSendLo] else [.eRx b, .xFetch]

/-- Pseudo-step `DRAIN n` (R61): the master reads `n` bytes. -/
def pseudoDrain (n : Nat) : List AgentStep := List.replicate n .eTx

end Sys2Proof
end

