-- ==== Sys2Proof/Config.lean ====
section
/-! DEFINITION. The parameters of 00_scope R4 and the free values. The fixed parameters are plain constants. The three
open parameters that a rule reads are the fields of `Params`, which `State` carries unchanged through every step (log
entry 3); the two that no rule reads are opaque. The free values are opaque functions of a counter: nothing can be
proved of what they give. -/

namespace Sys2Proof

/-- `CMD_READ` = `0x72`, ASCII `r` (R4). -/
def Config.cmdRead : Byte := 0x72#8

/-- `FRAME_BYTES` = 2 (R4). -/
def Config.frameBytes : Nat := 2

/-- `COUNTS_PER_CYCLE` = 4 (R4; 90_conflicts C1). -/
def Config.countsPerCycle : Nat := 4

/-- `MASKED_EDGE_POLICY` (R4, R143): what a level change does while the handler runs. -/
inductive MaskedEdgePolicy where
  /-- the change is latched: one more handler run follows -/
  | latch
  /-- the change leaves no trace -/
  | drop
  /-- a free one-bit draw at each such change; the default -/
  | either
deriving DecidableEq, Repr, Inhabited

/-- The open parameters of R4 that a rule reads. `none` for a depth is "unbounded", the default (92_eei_decisions D12). -/
structure Params where
  maskedEdgePolicy : MaskedEdgePolicy
  rxDepth : Option Nat
  txDepth : Option Nat
deriving DecidableEq, Repr, Inhabited

/-- The defaults of R4: `either`, unbounded, unbounded. -/
def Config.defaultParams : Params := ⟨.either, none, none⟩

/-- FREE VALUE. `draw{0, 1}` of R143, "chosen afresh at each such `E_PIN` under no law". -/
opaque Config.maskedLatchDraw : Nat → Bool

/-- FREE VALUE. Which step is tried next where the state's own trace does not say: R8, "at each point any one enabled
step of any agent may be taken next". The labels it gives to `E_PIN` and `E_RX` are the environment's free inputs. -/
opaque Config.schedule : Nat → AgentStep

/-- FREE VALUE. What `TXQ` holds after a push onto a full queue of finite `TX_DEPTH`: R38, "What the transport does
when `TXQ` is full is not in the source". Never used under the default, unbounded depth. -/
opaque Config.txPushFull : Nat → List Byte → Byte → List Byte

/-- OPEN. `BUS_ADDRESS` (R4, R36): read by no rule, so read by no definition of the model. -/
opaque Config.busAddress : Nat

/-- The two ways two encoder channels can drive two lines (R51). -/
inductive LineAssignment where
  | straight
  | swapped
deriving DecidableEq, Repr, Inhabited

/-- OPEN. `LINE_ASSIGNMENT` (R4, R51): read by no rule, so read by no definition of the model. -/
opaque Config.lineAssignment : LineAssignment

end Sys2Proof
end

