-- ==== Sys2Proof/WellFormed.lean ====
section
/-! DEFINITION. Well-formed instructions: the command byte that an `IGNORE` row carries lies in that row's pattern
(match and mask of 30_encoding R57). Every other row has no operand and is always well formed. -/

namespace Sys2Proof

/-- R57: "A byte `b` matches a row when `(b AND mask) = match`." -/
def matchesPattern (matchBits mask b : Byte) : Bool := (b &&& mask) == matchBits

/-- The operand of an `IGNORE` row lies in the row's pattern (R57). -/
def Instr.wellFormed : Instr → Bool
  | .qHold00_00 | .qDec00_01 | .qInc00_10 | .qSkip00_11 => true
  | .qInc01_00 | .qHold01_01 | .qSkip01_10 | .qDec01_11 => true
  | .qDec10_00 | .qSkip10_01 | .qHold10_10 | .qInc10_11 => true
  | .qSkip11_00 | .qInc11_01 | .qDec11_10 | .qHold11_11 => true
  | .readReset => true
  | .ignore1xxxxxxx b => matchesPattern 0x80#8 0x80#8 b
  | .ignore00xxxxxx b => matchesPattern 0x00#8 0xC0#8 b
  | .ignore010xxxxx b => matchesPattern 0x40#8 0xE0#8 b
  | .ignore0110xxxx b => matchesPattern 0x60#8 0xF0#8 b
  | .ignore01111xxx b => matchesPattern 0x78#8 0xF8#8 b
  | .ignore011101xx b => matchesPattern 0x74#8 0xFC#8 b
  | .ignore0111000x b => matchesPattern 0x70#8 0xFE#8 b
  | .ignore01110011 => true

end Sys2Proof
end

