-- ==== Sys2Proof/Decode.lean ====
section
/-! DEFINITION. Decoding and encoding (30_encoding). Two formats of input code, `TRANS` (4 bits, never transmitted) and
`CMD` (one byte), each total on its own words: R58, "No encoding is illegal and none traps." -/

namespace Sys2Proof

/-- The two formats of coded input (R50). `FRAME`, the coded output, is `frameBytes` in Machine/Operands.lean. -/
inductive Format where
  | trans
  | cmd
deriving DecidableEq, Repr, Inhabited

/-- A word of one of the two formats. -/
inductive Code where
  | trans (c : TransCode)
  | cmd (b : Byte)
deriving DecidableEq, Repr, Inhabited

/-- The `TRANS` map, R56, in the order of its rows. The last arm is code `0xF` alone: a code has four bits. -/
def decodeTrans (c : TransCode) : Instr :=
  match c.toNat with
  | 0x0 => .qHold00_00
  | 0x1 => .qDec00_01
  | 0x2 => .qInc00_10
  | 0x3 => .qSkip00_11
  | 0x4 => .qInc01_00
  | 0x5 => .qHold01_01
  | 0x6 => .qSkip01_10
  | 0x7 => .qDec01_11
  | 0x8 => .qDec10_00
  | 0x9 => .qSkip10_01
  | 0xA => .qHold10_10
  | 0xB => .qInc10_11
  | 0xC => .qSkip11_00
  | 0xD => .qInc11_01
  | 0xE => .qDec11_10
  | _ => .qHold11_11

/-- The `CMD` map, R57: `0x72` compared over all eight bits (R55), and the eight patterns of `IGNORE` in the spec's
order. The last arm is `0x73` alone, the one byte the patterns above it leave. -/
def decodeCmd (b : Byte) : Instr :=
  if b = Config.cmdRead then .readReset
  else if matchesPattern 0x80#8 0x80#8 b then .ignore1xxxxxxx b
  else if matchesPattern 0x00#8 0xC0#8 b then .ignore00xxxxxx b
  else if matchesPattern 0x40#8 0xE0#8 b then .ignore010xxxxx b
  else if matchesPattern 0x60#8 0xF0#8 b then .ignore0110xxxx b
  else if matchesPattern 0x78#8 0xF8#8 b then .ignore01111xxx b
  else if matchesPattern 0x74#8 0xFC#8 b then .ignore011101xx b
  else if matchesPattern 0x70#8 0xFE#8 b then .ignore0111000x b
  else .ignore01110011

/-- The instruction a word of either format stands for. -/
def decodeCode : Code → Instr
  | .trans c => decodeTrans c
  | .cmd b => decodeCmd b

/-- Why a list of bytes holds no instruction of a format. -/
inductive DecodeError where
  /-- there is no byte -/
  | noByte
  /-- a `TRANS` code has four bits and the byte has a higher bit set -/
  | widerThanTransCode
deriving DecidableEq, Repr

/-- Decoding from a list of bytes, with the bytes left over: one command is exactly one byte and the decoder never
looks at its neighbours (R50, R59). A `TRANS` code laid out in bytes is one byte with its high four bits zero (log
entry 9). -/
def decode (f : Format) : List Byte → Except DecodeError (Instr × List Byte)
  | [] => .error .noByte
  | b :: rest =>
    match f with
    | .cmd => .ok (decodeCmd b, rest)
    | .trans => if b.toNat < 16 then .ok (decodeTrans (b.extractLsb' 0 4), rest) else .error .widerThanTransCode

/-- The word of an instruction: the code column of R56; the command byte of R57. -/
def encode : Instr → Code
  | .qHold00_00 => .trans 0x0#4
  | .qDec00_01 => .trans 0x1#4
  | .qInc00_10 => .trans 0x2#4
  | .qSkip00_11 => .trans 0x3#4
  | .qInc01_00 => .trans 0x4#4
  | .qHold01_01 => .trans 0x5#4
  | .qSkip01_10 => .trans 0x6#4
  | .qDec01_11 => .trans 0x7#4
  | .qDec10_00 => .trans 0x8#4
  | .qSkip10_01 => .trans 0x9#4
  | .qHold10_10 => .trans 0xA#4
  | .qInc10_11 => .trans 0xB#4
  | .qSkip11_00 => .trans 0xC#4
  | .qInc11_01 => .trans 0xD#4
  | .qDec11_10 => .trans 0xE#4
  | .qHold11_11 => .trans 0xF#4
  | .readReset => .cmd Config.cmdRead
  | .ignore1xxxxxxx b => .cmd b
  | .ignore00xxxxxx b => .cmd b
  | .ignore010xxxxx b => .cmd b
  | .ignore0110xxxx b => .cmd b
  | .ignore01111xxx b => .cmd b
  | .ignore011101xx b => .cmd b
  | .ignore0111000x b => .cmd b
  | .ignore01110011 => .cmd 0x73#8

/-- The format of a word. -/
def Code.format : Code → Format
  | .trans _ => .trans
  | .cmd _ => .cmd

/-- A word laid out in bytes, as `decode` reads it. -/
def Code.bytes : Code → List Byte
  | .trans c => [c.setWidth 8]
  | .cmd b => [b]

/-- One row of spec/opcode_table.json: format, width in bits, and the match and mask of the row's word. -/
structure OpcodeRow where
  mnemonic : String
  format : Format
  width : Nat
  matchBits : Nat
  mask : Nat
deriving DecidableEq, Repr

/-- The word of a code as the opcode table numbers it: bit 0 is its least significant bit. -/
def Code.word : Code → Nat
  | .trans c => c.toNat
  | .cmd b => b.toNat

/-- A word matches a row when it has the row's format and `(word AND mask) = match` (R57; for `TRANS` the mask is all
four bits, R56). -/
def OpcodeRow.covers (r : OpcodeRow) (c : Code) : Bool :=
  r.format == c.format && (c.word &&& r.mask) == r.matchBits

/-- The 25 rows of spec/opcode_table.json, in its order. -/
def opcodeTable : List OpcodeRow :=
  [ ⟨"Q_HOLD_00_00", .trans, 4, 0x0, 0xF⟩, ⟨"Q_DEC_00_01", .trans, 4, 0x1, 0xF⟩,
    ⟨"Q_INC_00_10", .trans, 4, 0x2, 0xF⟩, ⟨"Q_SKIP_00_11", .trans, 4, 0x3, 0xF⟩,
    ⟨"Q_INC_01_00", .trans, 4, 0x4, 0xF⟩, ⟨"Q_HOLD_01_01", .trans, 4, 0x5, 0xF⟩,
    ⟨"Q_SKIP_01_10", .trans, 4, 0x6, 0xF⟩, ⟨"Q_DEC_01_11", .trans, 4, 0x7, 0xF⟩,
    ⟨"Q_DEC_10_00", .trans, 4, 0x8, 0xF⟩, ⟨"Q_SKIP_10_01", .trans, 4, 0x9, 0xF⟩,
    ⟨"Q_HOLD_10_10", .trans, 4, 0xA, 0xF⟩, ⟨"Q_INC_10_11", .trans, 4, 0xB, 0xF⟩,
    ⟨"Q_SKIP_11_00", .trans, 4, 0xC, 0xF⟩, ⟨"Q_INC_11_01", .trans, 4, 0xD, 0xF⟩,
    ⟨"Q_DEC_11_10", .trans, 4, 0xE, 0xF⟩, ⟨"Q_HOLD_11_11", .trans, 4, 0xF, 0xF⟩ ] ++
  [ ⟨"READ_RESET", .cmd, 8, 0x72, 0xFF⟩,
    ⟨"IGNORE", .cmd, 8, 0x80, 0x80⟩, ⟨"IGNORE", .cmd, 8, 0x00, 0xC0⟩, ⟨"IGNORE", .cmd, 8, 0x40, 0xE0⟩,
    ⟨"IGNORE", .cmd, 8, 0x60, 0xF0⟩, ⟨"IGNORE", .cmd, 8, 0x78, 0xF8⟩, ⟨"IGNORE", .cmd, 8, 0x74, 0xFC⟩,
    ⟨"IGNORE", .cmd, 8, 0x70, 0xFE⟩, ⟨"IGNORE", .cmd, 8, 0x73, 0xFF⟩ ]

/-- The place of an instruction's row in `opcodeTable`. -/
def Instr.rowIndex : Instr → Nat
  | .qHold00_00 => 0
  | .qDec00_01 => 1
  | .qInc00_10 => 2
  | .qSkip00_11 => 3
  | .qInc01_00 => 4
  | .qHold01_01 => 5
  | .qSkip01_10 => 6
  | .qDec01_11 => 7
  | .qDec10_00 => 8
  | .qSkip10_01 => 9
  | .qHold10_10 => 10
  | .qInc10_11 => 11
  | .qSkip11_00 => 12
  | .qInc11_01 => 13
  | .qDec11_10 => 14
  | .qHold11_11 => 15
  | .readReset => 16
  | .ignore1xxxxxxx _ => 17
  | .ignore00xxxxxx _ => 18
  | .ignore010xxxxx _ => 19
  | .ignore0110xxxx _ => 20
  | .ignore01111xxx _ => 21
  | .ignore011101xx _ => 22
  | .ignore0111000x _ => 23
  | .ignore01110011 => 24

/-- The code that a table word of `nbits` bits stands for. Both formats fill one byte here and their words overlap: a
`TRANS` code `0x0`..`0xF` and the command bytes `0x00`..`0x0F` are the same number. In the machine the two never meet
(a `TRANS` code is internal, a command byte comes from `RXQ`); at this interface alone a word below 16 is read as the
`TRANS` code, any other byte as a command (log entry 9). -/
def tableCode (nbits w : Nat) : Option Code :=
  if nbits = 4 ∨ nbits = 8 then
    if w < 16 then some (.trans (BitVec.ofNat 4 w))
    else if nbits = 8 ∧ w < 256 then some (.cmd (BitVec.ofNat 8 w))
    else none
  else none

/-- The instruction the decoder reads from a word numbered as spec/opcode_table.json numbers it. -/
def decodeTableWord (nbits w : Nat) : Option Instr :=
  match tableCode nbits w with
  | none => none
  | some c =>
    match decode c.format c.bytes with
    | .ok (i, _) => some i
    | .error _ => none

end Sys2Proof
end

