-- ==== Sys2Proof/Machine/State.lean ====
section
/-! DEFINITION. The state of the block (10_state R10 to R20), plain data, its two control enumerations, the reasons a
step can stop (none that the spec has), and the state right after reset (70_reset_and_hazards R170). -/

namespace Sys2Proof.Machine

/-- `DPHASE` (R17): whether the handler is running. -/
inductive DPhase where
  | idle
  | active
deriving DecidableEq, Repr, Inhabited

/-- `XPHASE` (R18): the control state of the exchange agent. `rest` is the source's REST; the other five together are
its TRANSMITTING. -/
inductive XPhase where
  | rest
  | armed
  | masked
  | taken
  | sendHi
  | sendLo
deriving DecidableEq, Repr, Inhabited

/-- The faults of the block. There are none: R9, "there is no fault, no trap, no stuck state other than waiting for
input, and no refusal"; R140, "The set of exception causes is empty". -/
inductive Fault where
deriving DecidableEq, Repr

/-- The refusals of the model. The spec has none (R9). -/
inductive Refusal where
  /-- Raised by an arm of `exec` whose instruction has no meaning yet; no arm does so. Safe: the model stops where the
  hardware goes on. -/
  | notModelled (mnemonic : String)
deriving DecidableEq, Repr

/-- The state. The first eleven fields are the elements of R10 to R20; the last four are the model's own. -/
structure State where
  /-- `PINS` (R10): the present levels of the two encoder lines, an input -/
  pins : PinState
  /-- `PREV` (R11): the previously observed PinState -/
  prev : PinState
  /-- `CUR` (R12): the sample latch -/
  cur : PinState
  /-- `COUNT` (R13): the pulse counter -/
  count : Word
  /-- `LATCH` (R14): the frame holding register -/
  latch : Word
  /-- `PEND` (R15): the trigger pending latch -/
  pend : Bool
  /-- `INH` (R16): interrupt-delivery inhibit -/
  inh : Bool
  /-- `DPHASE` (R17) -/
  dphase : DPhase
  /-- `XPHASE` (R18) -/
  xphase : XPhase
  /-- `RXQ` (R19): the inbound byte buffer, oldest first -/
  rxq : List Byte
  /-- `TXQ` (R20): the outbound byte path, oldest first -/
  txq : List Byte
  /-- MODEL'S OWN (log entry 4). The observation of R173: the bytes handed to the master so far, oldest first. -/
  delivered : List Byte
  /-- MODEL'S OWN (log entry 3). The open parameters of R4; no step writes it. -/
  params : Params
  /-- MODEL'S OWN (log entry 5). The trace (R60) still to be run: the steps tried next, in order. -/
  trace : List AgentStep
  /-- MODEL'S OWN (log entry 5). How many turns have been taken; the free values are applied to it. -/
  turn : Nat
deriving DecidableEq, Repr

/-- `RESET(p)` (R170, R26) under given parameters, with a trace to be run. `cur` and `latch` are arguments because the
two latches are "unspecified, any value" after reset. -/
def State.resetAt (params : Params) (p cur : PinState) (latch : Word) (trace : List AgentStep) : State where
  pins := p
  prev := p
  cur := cur
  count := 0x0000#16
  latch := latch
  pend := false
  inh := false
  dphase := .idle
  xphase := .rest
  rxq := []
  txq := []
  delivered := []
  params := params
  trace := trace
  turn := 0

/-- The machine right after reset: `RESET(00)` under the default parameters, with no trace. `p = 00` (log entry 1) and
the two unspecified latches at zero (log entry 2) are DESIGN CHOICES. -/
def State.reset : State := State.resetAt Config.defaultParams 0b00#2 0b00#2 0x0000#16 []

end Sys2Proof.Machine
end

