-- ==== Sys2Proof/Machine/Flags.lean ====
section
/-! DEFINITION. The interrupt control bits (10_state R15, R16; 60_exceptions R142 to R144). The block has no condition
codes and no status flags: no operation on `COUNT` writes one (R23, R106). -/

namespace Sys2Proof.Machine

/-- `masked_latch` (R143): 1 under `latch`, 0 under `drop`, the draw under `either`. -/
def maskedLatch (policy : MaskedEdgePolicy) (draw : Bool) : Bool :=
  match policy with
  | .latch => true
  | .drop => false
  | .either => draw

/-- `PEND` after a level change (R142): `PEND OR masked_latch` while the handler runs, else 1 whatever `INH` is. -/
def pendAfterChange (dphase : DPhase) (pend masked : Bool) : Bool :=
  match dphase with
  | .active => pend || masked
  | .idle => true

/-- The delivery condition (R144): `PEND = 1` and `INH = 0`. -/
def deliverable (s : State) : Bool := s.pend && !s.inh

end Sys2Proof.Machine
end

