-- ==== Sys2Proof/Machine/Operands.lean ====
section
/-! DEFINITION. Operands (30_encoding R52, R54, R55; 40_quadrature_decoder R73; 00_scope R5): the transition code, the
delta function, its 16-bit form, and the two bytes of a frame. -/

namespace Sys2Proof.Machine

/-- `code = prev : cur` (R52). -/
def transCode (prev cur : PinState) : TransCode := prev ++ cur

/-- The table of R73, one line for each `prev` (`00`, `01`, `10`, `11`), one column for each `cur` in the same order. -/
def deltaTable : List (List Int) :=
  [ [0, -1, 1, 0],
    [1, 0, 0, -1],
    [-1, 0, 0, 1],
    [0, 1, -1, 0] ]

/-- `delta(prev, cur)` (R73), one of `+1`, `-1`, `0`. -/
def delta (prev cur : PinState) : Int := (deltaTable.getD prev.toNat []).getD cur.toNat 0

/-- `sext_16(delta)` (R55): `+1` is `0x0001`, `-1` is `0xFFFF`, `0` is `0x0000`. -/
def sext16 (d : Int) : Word := BitVec.ofInt 16 d

/-- The high byte `v[15:8]` (R54, R5). -/
def frameHi (v : Word) : Byte := v.extractLsb' 8 8

/-- The low byte `v[7:0]` (R54, R5). -/
def frameLo (v : Word) : Byte := v.extractLsb' 0 8

/-- The CountFrame: high byte first (R32, R54). -/
def frameBytes (v : Word) : List Byte := [frameHi v, frameLo v]

/-- `sint16` (R5): the value itself below 32768, else the value less 65536. -/
def sint16 (v : Word) : Int := if v.toNat < 32768 then (v.toNat : Int) else (v.toNat : Int) - 65536

/-- How the receiver rebuilds the count (R54): `256 * uint(hi) + uint(lo)`, minus 65536 when `hi[7] = 1`. -/
def rebuildCount (hi lo : Byte) : Int :=
  256 * (hi.toNat : Int) + (lo.toNat : Int) - (if hi.getLsbD 7 then 65536 else 0)

end Sys2Proof.Machine
end

