-- ==== Sys2Proof/Machine/Ops.lean ====
section
/-! DEFINITION. The named operations over the state: the port primitives of 00_scope R6, the four counter operations
(41_counter_register R101 to R104), interrupt entry and return (60_exceptions R146, R147), the critical section
(41_counter_register R107 to R109), the frame writes (42_command_parser R124, R125) and the environment's steps
(R128, R129, R142). An operation is a step's effect; when a step is enabled is said in Machine/Control.lean. -/

namespace Sys2Proof.Machine

/-! ### Byte queues and the pin sample -/

/-- A queue of a given capacity can take one more byte (R4 `RX_DEPTH`, `TX_DEPTH`; R128). -/
def hasRoom (depth : Option Nat) (q : List Byte) : Bool :=
  match depth with
  | none => true
  | some d => decide (q.length < d)

/-- The part of a queue that a given capacity can hold. -/
def withinDepth (depth : Option Nat) (q : List Byte) : List Byte :=
  match depth with
  | none => q
  | some d => q.take d

/-- `SamplePins()` (R6, R34, R35): both lines at one instant, with no side effect. -/
def samplePins (s : State) : PinState := s.pins

/-- `RxAvail()` (R6). -/
def rxAvail (s : State) : Bool := !s.rxq.isEmpty

/-- `RxPop()` (R6, R35) removes the oldest byte of `RXQ`; the byte is the head of the state before. -/
def rxPop (s : State) : State := { s with rxq := s.rxq.tail }

/-- `TxPush(b)` (R6, R38) appends at the tail of `TXQ`. With a finite `TX_DEPTH` and a full queue the spec does not say
what `TXQ` holds afterwards: a free value within the depth (log entry 7). The core never learns of it (R38). -/
def txPush (b : Byte) (s : State) : State :=
  if hasRoom s.params.txDepth s.txq then { s with txq := s.txq ++ [b] }
  else { s with txq := withinDepth s.params.txDepth (Config.txPushFull s.turn s.txq b) }

/-! ### The counter -/

/-- `CNT_INC` (R101). -/
def cntInc (c : Word) : Word := c + 0x0001#16

/-- `CNT_DEC` (R102). -/
def cntDec (c : Word) : Word := c + 0xFFFF#16

/-- `CNT_HOLD` (R103). -/
def cntHold (c : Word) : Word := c

/-- `CNT_TAKE` (R104): `LATCH <- COUNT; COUNT <- 0x0000` in one step, `LATCH` receiving the value before the clear. -/
def cntTake (s : State) : State := { s with latch := s.count, count := 0x0000#16 }

/-! ### The interrupt: entry (taking it) and return -/

/-- Interrupt entry, the step `D_ENTER` (R71, R146). Nothing else of the block is saved. -/
def interruptEntry (s : State) : State :=
  { s with pend := false, inh := true, cur := samplePins s, dphase := .active }

/-- Interrupt return (R147): re-enable delivery and let the main loop go on. -/
def interruptReturn (s : State) : State := { s with inh := false, dphase := .idle }

/-- The handler's body and return, the step `D_COMMIT` (R72): a counter operation, `PREV <- cur`, and the return. -/
def recordTransition (op : Word → Word) (cur : PinState) (s : State) : State :=
  interruptReturn { s with count := op s.count, prev := cur }

/-! ### The exchange agent -/

/-- `X_FETCH` on the read-command (R121): the byte is consumed and the exchange is armed. -/
def armExchange (s : State) : State := { rxPop s with xphase := .armed }

/-- `X_FETCH` on any other byte (R121, R123): the byte is consumed, `XPHASE` stays `REST`. -/
def discardByte (s : State) : State := { rxPop s with xphase := .rest }

/-- `X_MASK` (R107). -/
def enterCritical (s : State) : State := { s with inh := true, xphase := .masked }

/-- `X_TAKE` (R108). -/
def takeCount (s : State) : State := { cntTake s with xphase := .taken }

/-- `X_UNMASK` (R109). -/
def leaveCritical (s : State) : State := { s with inh := false, xphase := .sendHi }

/-- `X_SEND_HI` (R124). -/
def sendHigh (s : State) : State := { txPush (frameHi s.latch) s with xphase := .sendLo }

/-- `X_SEND_LO` (R125). -/
def sendLow (s : State) : State := { txPush (frameLo s.latch) s with xphase := .rest }

/-! ### The environment -/

/-- `E_PIN(v)` (R142), with the value `masked` of `masked_latch` (R143). -/
def pinChange (v : PinState) (masked : Bool) (s : State) : State :=
  { s with pins := v, pend := pendAfterChange s.dphase s.pend masked }

/-- `E_RX(b)` (R128): append at the tail of `RXQ`. -/
def receiveByte (b : Byte) (s : State) : State := { s with rxq := s.rxq ++ [b] }

/-- `E_TX` (R129): the oldest byte of `TXQ` goes to the master. On an empty `TXQ` the step is not enabled. -/
def deliverByte (s : State) : State :=
  match s.txq with
  | [] => s
  | o :: rest => { s with txq := rest, delivered := s.delivered ++ [o] }

end Sys2Proof.Machine
end

