-- ==== Sys2Proof/Machine/Control.lean ====
section
/-! DEFINITION. Control: when each step is enabled (the `require` line of each step's rule; 95_test_vectors section 2.6
tabulates them) and which step is tried next (00_scope R8). -/

namespace Sys2Proof.Machine

/-- The enabling condition of each step: R142, R128, R129, R71, R72, R121, R107, R108, R109, R124, R125. -/
def enabled (l : AgentStep) (s : State) : Bool :=
  match l with
  | .ePin v => v != s.pins
  | .eRx _ => hasRoom s.params.rxDepth s.rxq
  | .eTx => !s.txq.isEmpty
  | .dEnter => deliverable s
  | .dCommit => s.dphase == .active
  | .xFetch => s.xphase == .rest && s.dphase == .idle && rxAvail s
  | .xMask => s.xphase == .armed && s.dphase == .idle
  | .xTake => s.xphase == .masked
  | .xUnmask => s.xphase == .taken
  | .xSendHi => s.xphase == .sendHi && s.dphase == .idle
  | .xSendLo => s.xphase == .sendLo && s.dphase == .idle

/-- The step tried next: the head of the trace, and where no trace is left a free choice (R8; log entry 5). -/
def nextAgentStep (s : State) : AgentStep :=
  match s.trace with
  | l :: _ => l
  | [] => Config.schedule s.turn

/-- One turn passes: the trace's line is used up and the free values are drawn afresh. -/
def advance (s : State) : State := { s with trace := s.trace.tail, turn := s.turn + 1 }

/-- The value of `masked_latch` for a level change in this state (R143). -/
def drawMaskedLatch (s : State) : Bool :=
  maskedLatch s.params.maskedEdgePolicy (Config.maskedLatchDraw s.turn)

/-- `s` with a code placed where the next step decodes it, and the trace line that decodes it put first: a `TRANS`
code goes into `PREV` and `CUR` of a running handler (R52, R72), a command byte to the head of `RXQ` of a resting
exchange agent (R121). `INH` is kept as R24 has it. -/
def placeCode (c : Code) (s : State) : State :=
  match c with
  | .trans t =>
    { s with prev := t.extractLsb' 2 2, cur := t.extractLsb' 0 2, dphase := .active, inh := true,
             trace := .dCommit :: s.trace }
  | .cmd b =>
    { s with rxq := b :: s.rxq.tail, xphase := .rest, dphase := .idle, inh := false, trace := .xFetch :: s.trace }

end Sys2Proof.Machine
end

