-- ==== Sys2Proof/Machine/Decoder.lean ====
section
/-! DEFINITION. The meanings of the sixteen `TRANS` rows (40_quadrature_decoder R74 to R89). Each is the body of
`D_COMMIT` (R72) for one pair: the counter operation of its class, `PREV` written with its `cur`, delivery re-enabled
and the handler left. No flag is written and nothing is raised (R91). -/

namespace Sys2Proof.Machine

/-- `Q_HOLD_00_00`, code `0x0` (R74): delta 0, `PREV <- 00`. -/
def execQHold00_00 (s : State) : Host.Outcome State Fault Refusal := .next (recordTransition cntHold 0b00#2 s)

/-- `Q_DEC_00_01`, code `0x1` (R75): delta -1, `PREV <- 01`. -/
def execQDec00_01 (s : State) : Host.Outcome State Fault Refusal := .next (recordTransition cntDec 0b01#2 s)

/-- `Q_INC_00_10`, code `0x2` (R76): delta +1, `PREV <- 10`. -/
def execQInc00_10 (s : State) : Host.Outcome State Fault Refusal := .next (recordTransition cntInc 0b10#2 s)

/-- `Q_SKIP_00_11`, code `0x3` (R77): a double step, delta 0, `PREV <- 11`. -/
def execQSkip00_11 (s : State) : Host.Outcome State Fault Refusal := .next (recordTransition cntHold 0b11#2 s)

/-- `Q_INC_01_00`, code `0x4` (R78): delta +1, `PREV <- 00`. -/
def execQInc01_00 (s : State) : Host.Outcome State Fault Refusal := .next (recordTransition cntInc 0b00#2 s)

/-- `Q_HOLD_01_01`, code `0x5` (R79): delta 0, `PREV <- 01`. -/
def execQHold01_01 (s : State) : Host.Outcome State Fault Refusal := .next (recordTransition cntHold 0b01#2 s)

/-- `Q_SKIP_01_10`, code `0x6` (R80): a double step, delta 0, `PREV <- 10`. -/
def execQSkip01_10 (s : State) : Host.Outcome State Fault Refusal := .next (recordTransition cntHold 0b10#2 s)

/-- `Q_DEC_01_11`, code `0x7` (R81): delta -1, `PREV <- 11`. -/
def execQDec01_11 (s : State) : Host.Outcome State Fault Refusal := .next (recordTransition cntDec 0b11#2 s)

/-- `Q_DEC_10_00`, code `0x8` (R82): delta -1, `PREV <- 00`. -/
def execQDec10_00 (s : State) : Host.Outcome State Fault Refusal := .next (recordTransition cntDec 0b00#2 s)

/-- `Q_SKIP_10_01`, code `0x9` (R83): a double step, delta 0, `PREV <- 01`. -/
def execQSkip10_01 (s : State) : Host.Outcome State Fault Refusal := .next (recordTransition cntHold 0b01#2 s)

/-- `Q_HOLD_10_10`, code `0xA` (R84): delta 0, `PREV <- 10`. -/
def execQHold10_10 (s : State) : Host.Outcome State Fault Refusal := .next (recordTransition cntHold 0b10#2 s)

/-- `Q_INC_10_11`, code `0xB` (R85): delta +1, `PREV <- 11`. -/
def execQInc10_11 (s : State) : Host.Outcome State Fault Refusal := .next (recordTransition cntInc 0b11#2 s)

/-- `Q_SKIP_11_00`, code `0xC` (R86): a double step, delta 0, `PREV <- 00`. -/
def execQSkip11_00 (s : State) : Host.Outcome State Fault Refusal := .next (recordTransition cntHold 0b00#2 s)

/-- `Q_INC_11_01`, code `0xD` (R87): delta +1, `PREV <- 01`. -/
def execQInc11_01 (s : State) : Host.Outcome State Fault Refusal := .next (recordTransition cntInc 0b01#2 s)

/-- `Q_DEC_11_10`, code `0xE` (R88): delta -1, `PREV <- 10`. -/
def execQDec11_10 (s : State) : Host.Outcome State Fault Refusal := .next (recordTransition cntDec 0b10#2 s)

/-- `Q_HOLD_11_11`, code `0xF` (R89): delta 0, `PREV <- 11`. -/
def execQHold11_11 (s : State) : Host.Outcome State Fault Refusal := .next (recordTransition cntHold 0b11#2 s)

end Sys2Proof.Machine
end

