-- ==== Sys2Proof/Machine/Parser.lean ====
section
/-! DEFINITION. The meanings of the command rows (42_command_parser R122, R123). `READ_RESET` is a sequence of six
steps with steps of the other agents between them (R122; the split form is normative, R110), so its meaning is the one
of the six that `XPHASE` says is next: while `XPHASE` is not `REST` a `READ_RESET` is in progress. -/

namespace Sys2Proof.Machine

/-- `READ_RESET`, byte `0x72` (R122): consume the byte and arm (R121), mask (R107), take (R108), unmask (R109), send the
high byte (R124), send the low byte (R125). -/
def execReadReset (s : State) : Host.Outcome State Fault Refusal :=
  match s.xphase with
  | .rest => .next (armExchange s)
  | .armed => .next (enterCritical s)
  | .masked => .next (takeCount s)
  | .taken => .next (leaveCritical s)
  | .sendHi => .next (sendHigh s)
  | .sendLo => .next (sendLow s)

/-- `IGNORE`, pattern `1xxxxxxx` (R123): the byte is consumed and nothing else changes. -/
def execIgnore1xxxxxxx (_b : Byte) (s : State) : Host.Outcome State Fault Refusal := .next (discardByte s)

/-- `IGNORE`, pattern `00xxxxxx` (R123): the byte is consumed and nothing else changes. -/
def execIgnore00xxxxxx (_b : Byte) (s : State) : Host.Outcome State Fault Refusal := .next (discardByte s)

/-- `IGNORE`, pattern `010xxxxx` (R123): the byte is consumed and nothing else changes. -/
def execIgnore010xxxxx (_b : Byte) (s : State) : Host.Outcome State Fault Refusal := .next (discardByte s)

/-- `IGNORE`, pattern `0110xxxx` (R123): the byte is consumed and nothing else changes. -/
def execIgnore0110xxxx (_b : Byte) (s : State) : Host.Outcome State Fault Refusal := .next (discardByte s)

/-- `IGNORE`, pattern `01111xxx` (R123): the byte is consumed and nothing else changes. -/
def execIgnore01111xxx (_b : Byte) (s : State) : Host.Outcome State Fault Refusal := .next (discardByte s)

/-- `IGNORE`, pattern `011101xx` (R123): the byte is consumed and nothing else changes. -/
def execIgnore011101xx (_b : Byte) (s : State) : Host.Outcome State Fault Refusal := .next (discardByte s)

/-- `IGNORE`, pattern `0111000x` (R123): the byte is consumed and nothing else changes. -/
def execIgnore0111000x (_b : Byte) (s : State) : Host.Outcome State Fault Refusal := .next (discardByte s)

/-- `IGNORE`, the byte `0x73` (R123): the byte is consumed and nothing else changes. -/
def execIgnore01110011 (s : State) : Host.Outcome State Fault Refusal := .next (discardByte s)

end Sys2Proof.Machine
end

