-- ==== Sys2Proof/Machine/Dispatch.lean ====
section
/-! DEFINITION. `exec`: one arm for each row of the opcode table. -/

namespace Sys2Proof.Machine

def exec (i : Instr) (s : State) : Host.Outcome State Fault Refusal :=
  match i with
  | .qHold00_00 => Sys2Proof.Machine.execQHold00_00 s
  | .qDec00_01 => Sys2Proof.Machine.execQDec00_01 s
  | .qInc00_10 => Sys2Proof.Machine.execQInc00_10 s
  | .qSkip00_11 => Sys2Proof.Machine.execQSkip00_11 s
  | .qInc01_00 => Sys2Proof.Machine.execQInc01_00 s
  | .qHold01_01 => Sys2Proof.Machine.execQHold01_01 s
  | .qSkip01_10 => Sys2Proof.Machine.execQSkip01_10 s
  | .qDec01_11 => Sys2Proof.Machine.execQDec01_11 s
  | .qDec10_00 => Sys2Proof.Machine.execQDec10_00 s
  | .qSkip10_01 => Sys2Proof.Machine.execQSkip10_01 s
  | .qHold10_10 => Sys2Proof.Machine.execQHold10_10 s
  | .qInc10_11 => Sys2Proof.Machine.execQInc10_11 s
  | .qSkip11_00 => Sys2Proof.Machine.execQSkip11_00 s
  | .qInc11_01 => Sys2Proof.Machine.execQInc11_01 s
  | .qDec11_10 => Sys2Proof.Machine.execQDec11_10 s
  | .qHold11_11 => Sys2Proof.Machine.execQHold11_11 s
  | .readReset => Sys2Proof.Machine.execReadReset s
  | .ignore1xxxxxxx b => Sys2Proof.Machine.execIgnore1xxxxxxx b s
  | .ignore00xxxxxx b => Sys2Proof.Machine.execIgnore00xxxxxx b s
  | .ignore010xxxxx b => Sys2Proof.Machine.execIgnore010xxxxx b s
  | .ignore0110xxxx b => Sys2Proof.Machine.execIgnore0110xxxx b s
  | .ignore01111xxx b => Sys2Proof.Machine.execIgnore01111xxx b s
  | .ignore011101xx b => Sys2Proof.Machine.execIgnore011101xx b s
  | .ignore0111000x b => Sys2Proof.Machine.execIgnore0111000x b s
  | .ignore01110011 => Sys2Proof.Machine.execIgnore01110011 s

end Sys2Proof.Machine
end

