-- ==== Sys2Proof/Machine/Turn.lean ====
section
/-! DEFINITION. One turn: what each step of R7 does when it is taken, and what a step that is not enabled does. -/

namespace Sys2Proof.Machine

/-- The effect of an enabled step. `D_COMMIT` decodes `PREV : CUR` and runs that `TRANS` row (R52, R72); `X_FETCH`
decodes the oldest byte of `RXQ` and runs that `CMD` row (R121); the other steps of the exchange agent carry on the
`READ_RESET` in progress (R122); `D_ENTER` and the environment's steps are no instructions. -/
def perform (l : AgentStep) (s : State) : Host.Outcome State Fault Refusal :=
  match l with
  | .ePin v => .next (pinChange v (drawMaskedLatch s) s)
  | .eRx b => .next (receiveByte b s)
  | .eTx => .next (deliverByte s)
  | .dEnter => .next (interruptEntry s)
  | .dCommit => exec (decodeTrans (transCode s.prev s.cur)) s
  | .xFetch =>
    match s.rxq with
    | [] => .next s
    | b :: _ => exec (decodeCmd b) s
  | .xMask | .xTake | .xUnmask | .xSendHi | .xSendLo => exec .readReset s

/-- A step is taken when it is enabled; a step that is not enabled is no step and changes nothing (R8, R121: "a poll
that finds nothing changes no state"; log entry 6). -/
def takeStep (l : AgentStep) (s : State) : Host.Outcome State Fault Refusal :=
  if enabled l s then perform l s else .next s

end Sys2Proof.Machine
end

