-- ==== Sys2Proof/Machine/Step.lean ====
section
/-! DEFINITION. The step function of the machine, and how a word is placed for it. -/

namespace Sys2Proof.Machine

/-- One step of the interleaving (00_scope R8): the step that the trace, or failing it the free schedule, names next. -/
def step (s : State) : Host.Outcome State Fault Refusal := takeStep (nextAgentStep s) (advance s)

/-- `s` with a word of the opcode table placed so that the very next step decodes and runs it (log entries 5, 9). A
number that is no word of the table changes nothing. -/
def State.withFetchWord (s : State) (nbits w : Nat) : State :=
  match tableCode nbits w with
  | some c => placeCode c s
  | none => s

end Sys2Proof.Machine
end

