-- ==== Sys2Proof/Safety.lean ====
section
/-! DEFINITION. What claims about the block are made of: its invariants (10_state R24, R4's depths), runs and what they
count (20_memory R40, R41; 40_quadrature_decoder R94), the bytes a run owes (42_command_parser R127), quiescence
(70_reset_and_hazards R173) and weak fairness (60_exceptions R149). -/

namespace Sys2Proof.Machine

/-! ### Invariants -/

/-- The exchange agent's critical section (00_scope section 7): `XPHASE` in `{MASKED, TAKEN}`. -/
abbrev State.inCritical (s : State) : Prop := s.xphase = .masked ∨ s.xphase = .taken

/-- The invariant of R24: `INH = 1` exactly in the handler and in the critical section, and the two never overlap. -/
abbrev State.inhibitScoped (s : State) : Prop :=
  (s.inh = true ↔ s.dphase = .active ∨ s.inCritical) ∧ ¬ (s.dphase = .active ∧ s.inCritical)

/-- A queue is no longer than its depth. -/
def fitsDepth (depth : Option Nat) (q : List Byte) : Bool :=
  match depth with
  | none => true
  | some d => decide (q.length ≤ d)

/-- Both queues respect `RX_DEPTH` and `TX_DEPTH` (R4, R19, R20). -/
abbrev State.queuesFit (s : State) : Prop :=
  fitsDepth s.params.rxDepth s.rxq = true ∧ fitsDepth s.params.txDepth s.txq = true

/-- With nothing pending, the newest sample is the present level of the lines: `PREV` at rest, `CUR` in the handler. Under
the policy `latch` every step keeps it. It does not say that every level was sampled: levels that came and went while
`PEND = 1` were not (R174, R182). -/
abbrev State.newestSampled (s : State) : Prop :=
  s.pend = false → (s.dphase = .idle → s.prev = s.pins) ∧ (s.dphase = .active → s.cur = s.pins)

/-- A quiescent state (R173). -/
abbrev State.quiescent (s : State) : Prop :=
  s.dphase = .idle ∧ s.xphase = .rest ∧ s.pend = false ∧ s.rxq = [] ∧ s.txq = []

/-- Two states agree but for latches that no step will read before it is written (R25): in everything but `CUR` and
`LATCH`, in `CUR` while the handler is active, and in `LATCH` from the take to the end of the frame. -/
abbrev State.agreesButUnreadLatches (a b : State) : Prop :=
  a = { b with cur := a.cur, latch := a.latch } ∧
  (a.dphase = .active → a.cur = b.cur) ∧
  (a.xphase = .taken ∨ a.xphase = .sendHi ∨ a.xphase = .sendLo → a.latch = b.latch)

/-! ### Sequences of meanings -/

/-- The meanings of several instructions, one after another, with no step of another agent between them. -/
def execSeq : List Instr → State → Host.Outcome State Fault Refusal
  | [], s => .next s
  | i :: is, s =>
    match exec i s with
    | .next t => execSeq is t
    | .fault r => .fault r
    | .refused r => .refused r

/-- What R74 to R89 say of one `TRANS` row: its code, its operands, its delta, and, where `D_COMMIT` runs it (R72: the
handler active with these operands), the state after it, everything else unchanged. -/
def TransRowMeans (i : Instr) (code : TransCode) (prev cur : PinState) (d : Int) : Prop :=
  transCode prev cur = code ∧ decodeTrans code = i ∧ encode i = .trans code ∧ delta prev cur = d ∧
  ∀ s : State, s.dphase = .active → s.prev = prev → s.cur = cur →
    exec i s = .next { s with count := s.count + sext16 d, prev := cur, inh := false, dphase := .idle }

/-- What `exec` of one `TRANS` row does in every state, those where the block would not run the row among them (log entry
8). -/
def TransRowRuns (i : Instr) (cur : PinState) (d : Int) : Prop :=
  ∀ s : State, exec i s =
    .next { s with count := s.count + sext16 d, prev := cur, inh := false, dphase := .idle }

/-! ### Runs -/

/-- The state after one step (no step stops: R9). -/
def stepState (s : State) : State :=
  match step s with
  | .next t => t
  | .fault _ => s
  | .refused _ => s

/-- The state after `k` steps. -/
def after : Nat → State → State
  | 0, s => s
  | k + 1, s => after k (stepState s)

/-- The next step is `l` and it is enabled, so that it is taken. -/
def happens (l : AgentStep) (s : State) : Bool := nextAgentStep s == l && enabled l s

/-- The deltas of the `D_COMMIT` steps among the next `k` steps, in order. -/
def committedDeltas : Nat → State → List Int
  | 0, _ => []
  | k + 1, s => (if happens .dCommit s then [delta s.prev s.cur] else []) ++ committedDeltas k (stepState s)

/-- The values of `COUNT` that the `X_TAKE` steps among the next `k` steps take, in order. -/
def takenValues : Nat → State → List Word
  | 0, _ => []
  | k + 1, s => (if happens .xTake s then [s.count] else []) ++ takenValues k (stepState s)

/-- The command bytes that the `X_FETCH` steps among the next `k` steps consume, in order. -/
def fetchedBytes : Nat → State → List Byte
  | 0, _ => []
  | k + 1, s => (if happens .xFetch s then s.rxq.take 1 else []) ++ fetchedBytes k (stepState s)

/-- The bytes that the `E_RX` steps among the next `k` steps append, in order. -/
def receivedBytes : Nat → State → List Byte
  | 0, _ => []
  | k + 1, s =>
    (match nextAgentStep s with
      | .eRx b => if enabled (.eRx b) s then [b] else []
      | _ => []) ++ receivedBytes k (stepState s)

/-- The bytes of the current frame that are still to be pushed on `TXQ`. -/
def owedBytes (s : State) : List Byte :=
  match s.xphase with
  | .taken | .sendHi => frameBytes s.latch
  | .sendLo => [frameLo s.latch]
  | .rest | .armed | .masked => []

/-- How many read-commands have been consumed and not yet taken: one in `ARMED` and `MASKED`, else none. -/
def untaken (s : State) : Nat :=
  match s.xphase with
  | .armed | .masked => 1
  | .rest | .taken | .sendHi | .sendLo => 0

/-- Weak fairness of the two internal agents (R149): a step of theirs that is enabled and stays enabled is taken. -/
def WeaklyFair (s : State) : Prop :=
  ∀ l : AgentStep, l.agent ≠ .environment → ∀ n, ∃ m, n ≤ m ∧
    (enabled l (after m s) = false ∨ happens l (after m s) = true)

end Sys2Proof.Machine
end

