-- ==== Sys2Proof/Certificates/Slice0/Obligations.lean ====
section
/-! DEFINITION. The statements for the provers. Each docstring names the rules of spec/ it formalises; a statement or a
clause that rests on a choice of the model says so and names the log entry. -/

open Sys2Proof Sys2Proof.Machine

/-! ### The sixteen transitions -/

/-- R76, R78, R85, R87: the rows of class INC, with code, operands, delta `+1`, and the whole state after, where R72 runs
them. -/
def Obligations.IncTransitionsCountUp : Prop :=
  TransRowMeans .qInc00_10 0x2#4 0b00#2 0b10#2 1 ∧
  TransRowMeans .qInc01_00 0x4#4 0b01#2 0b00#2 1 ∧
  TransRowMeans .qInc10_11 0xB#4 0b10#2 0b11#2 1 ∧
  TransRowMeans .qInc11_01 0xD#4 0b11#2 0b01#2 1

/-- R75, R81, R82, R88: the rows of class DEC, with delta `-1`, where R72 runs them. -/
def Obligations.DecTransitionsCountDown : Prop :=
  TransRowMeans .qDec00_01 0x1#4 0b00#2 0b01#2 (-1) ∧
  TransRowMeans .qDec01_11 0x7#4 0b01#2 0b11#2 (-1) ∧
  TransRowMeans .qDec10_00 0x8#4 0b10#2 0b00#2 (-1) ∧
  TransRowMeans .qDec11_10 0xE#4 0b11#2 0b10#2 (-1)

/-- R74, R79, R84, R89: the rows of class HOLD, with delta 0, where R72 runs them; the count is unchanged. -/
def Obligations.HoldTransitionsKeepCount : Prop :=
  TransRowMeans .qHold00_00 0x0#4 0b00#2 0b00#2 0 ∧
  TransRowMeans .qHold01_01 0x5#4 0b01#2 0b01#2 0 ∧
  TransRowMeans .qHold10_10 0xA#4 0b10#2 0b10#2 0 ∧
  TransRowMeans .qHold11_11 0xF#4 0b11#2 0b11#2 0

/-- R77, R80, R83, R86: the rows of class SKIP, with delta 0, where R72 runs them; `PREV` still takes the sample. -/
def Obligations.SkipTransitionsResynchronise : Prop :=
  TransRowMeans .qSkip00_11 0x3#4 0b00#2 0b11#2 0 ∧
  TransRowMeans .qSkip01_10 0x6#4 0b01#2 0b10#2 0 ∧
  TransRowMeans .qSkip10_01 0x9#4 0b10#2 0b01#2 0 ∧
  TransRowMeans .qSkip11_00 0xC#4 0b11#2 0b00#2 0

/-- The sixteen rows as `exec` has them in every state: with the handler idle too, and with `PREV` and `CUR` other than the
row's. The spec runs a row only in `D_COMMIT` (R72; the four statements above); that `exec` is defined on the other states,
and what it does there, is the model's choice (log entry 8). -/
def Obligations.TransRowsRunInEveryState : Prop :=
  TransRowRuns .qHold00_00 0b00#2 0 ∧ TransRowRuns .qDec00_01 0b01#2 (-1) ∧
  TransRowRuns .qInc00_10 0b10#2 1 ∧ TransRowRuns .qSkip00_11 0b11#2 0 ∧
  TransRowRuns .qInc01_00 0b00#2 1 ∧ TransRowRuns .qHold01_01 0b01#2 0 ∧
  TransRowRuns .qSkip01_10 0b10#2 0 ∧ TransRowRuns .qDec01_11 0b11#2 (-1) ∧
  TransRowRuns .qDec10_00 0b00#2 (-1) ∧ TransRowRuns .qSkip10_01 0b01#2 0 ∧
  TransRowRuns .qHold10_10 0b10#2 0 ∧ TransRowRuns .qInc10_11 0b11#2 1 ∧
  TransRowRuns .qSkip11_00 0b00#2 0 ∧ TransRowRuns .qInc11_01 0b01#2 1 ∧
  TransRowRuns .qDec11_10 0b10#2 (-1) ∧ TransRowRuns .qHold11_11 0b11#2 0

/-- R72: the step `D_COMMIT`, enabled exactly when `DPHASE = ACTIVE`, adds the table's delta, writes `PREV` with `CUR`
for every delta, re-enables delivery and leaves the handler; nothing else of the block changes. The model's choices: that
the step tried while not enabled only passes the turn (log entry 6), and the trace and turn that `advance` moves (log
entry 5). -/
def Obligations.DCommitAppliesTheDeltaTable : Prop :=
  ∀ s : State, nextAgentStep s = .dCommit →
    step s = .next
      (if s.dphase = .active then
        { advance s with
          count := s.count + sext16 (delta s.prev s.cur), prev := s.cur, inh := false, dphase := .idle }
      else advance s)

/-- R92: the closed forms (a), (b) and (c) agree with the table of R73 on all pairs. -/
def Obligations.DeltaClosedFormsAgree : Prop :=
  ∀ p c : PinState,
    (delta p c = 1 ↔ c.getLsbD 1 = !p.getLsbD 0 ∧ c.getLsbD 0 = p.getLsbD 1) ∧
    (delta p c = -1 ↔ c.getLsbD 1 = p.getLsbD 0 ∧ c.getLsbD 0 = !p.getLsbD 1) ∧
    (delta p c = 1 ∨ delta p c = -1 ∨ delta p c = 0) ∧
    (delta p c =
      if p ^^^ c = 0b00#2 ∨ p ^^^ c = 0b11#2 then 0
      else if (p.getLsbD 1).xor (c.getLsbD 0) = false then 1 else -1) ∧
    delta p c = -delta c p

/-! ### The counter -/

/-- R101, R102, R103: what the codes of each class do to `COUNT` where `D_COMMIT` runs them (R72: the handler active, the
code that of `PREV : CUR`), as unsigned arithmetic modulo 65536, with the wrap points. -/
def Obligations.CounterOperationsWrap : Prop :=
  (∀ code ∈ [0x2#4, 0x4#4, 0xB#4, 0xD#4], ∀ s : State, s.dphase = .active → transCode s.prev s.cur = code →
    ∃ t, exec (decodeTrans code) s = .next t ∧ t.count.toNat = (s.count.toNat + 1) % 65536) ∧
  (∀ code ∈ [0x1#4, 0x7#4, 0x8#4, 0xE#4], ∀ s : State, s.dphase = .active → transCode s.prev s.cur = code →
    ∃ t, exec (decodeTrans code) s = .next t ∧ t.count.toNat = (s.count.toNat + 65535) % 65536) ∧
  (∀ code ∈ [0x0#4, 0x3#4, 0x5#4, 0x6#4, 0x9#4, 0xA#4, 0xC#4, 0xF#4], ∀ s : State,
    s.dphase = .active → transCode s.prev s.cur = code →
    ∃ t, exec (decodeTrans code) s = .next t ∧ t.count = s.count) ∧
  cntInc 0x7FFF#16 = 0x8000#16 ∧ cntInc 0xFFFF#16 = 0x0000#16 ∧
  cntDec 0x8000#16 = 0x7FFF#16 ∧ cntDec 0x0000#16 = 0xFFFF#16

/-- R105, R106 read with R5: the signed count goes up or down by one and wraps silently at the two ends; the two
operations undo each other. -/
def Obligations.SignedCountWrapsSilently : Prop :=
  ∀ c : Word,
    sint16 (cntInc c) = (if sint16 c = 32767 then -32768 else sint16 c + 1) ∧
    sint16 (cntDec c) = (if sint16 c = -32768 then 32767 else sint16 c - 1) ∧
    cntDec (cntInc c) = c ∧ cntInc (cntDec c) = c

/-- R107, R108, R109: the three steps of the critical section, each with its enabling condition and everything it
changes; what the conditions imply where the invariant of R24 holds, and what becomes of a trigger in the span. The
three `else advance s`, that a step tried while not enabled only passes the turn, are the model's choice (log entry 6), as
are the trace and turn that `advance` moves (log entry 5). -/
def Obligations.CriticalSectionSteps : Prop :=
  (∀ s : State, nextAgentStep s = .xMask → step s = .next
    (if s.xphase = .armed ∧ s.dphase = .idle then { advance s with inh := true, xphase := .masked }
      else advance s)) ∧
  (∀ s : State, nextAgentStep s = .xTake → step s = .next
    (if s.xphase = .masked then { advance s with latch := s.count, count := 0x0000#16, xphase := .taken }
      else advance s)) ∧
  (∀ s : State, nextAgentStep s = .xUnmask → step s = .next
    (if s.xphase = .taken then { advance s with inh := false, xphase := .sendHi } else advance s)) ∧
  (∀ s : State, s.inhibitScoped →
    (enabled .xMask s = true → s.inh = false) ∧
    (enabled .xTake s = true → s.inh = true ∧ s.dphase = .idle) ∧
    (s.inCritical → enabled .dEnter s = false) ∧
    (s.inCritical → ∀ v, happens (.ePin v) s = true → (stepState s).pend = true)) ∧
  (∀ s : State, happens .xUnmask s = true → s.pend = true → enabled .dEnter (stepState s) = true)

/-- R111: of two takes with no `D_COMMIT` between them the first returns the count and leaves 0, the second returns 0
and leaves 0. -/
def Obligations.RepeatedTakeReturnsZero : Prop :=
  ∀ s : State, happens .xTake s = true →
    (stepState s).latch = s.count ∧ (stepState s).count = 0x0000#16 ∧
    ∀ k, committedDeltas k (stepState s) = [] → happens .xTake (after k (stepState s)) = true →
      (stepState (after k (stepState s))).latch = 0x0000#16 ∧
      (stepState (after k (stepState s))).count = 0x0000#16

/-! ### The parser and responder -/

/-- R121: the step `X_FETCH`, enabled when the agent rests, no handler runs and a byte waits, consumes exactly the
oldest byte and arms the exchange on `0x72` alone; no other step consumes a byte. That a poll which finds nothing, or
comes when the step is not enabled, is a turn in which nothing happens is the model's choice (log entry 6; trace and turn,
log entry 5). -/
def Obligations.FetchConsumesOneByte : Prop :=
  (∀ s : State, nextAgentStep s = .xFetch → step s = .next
    (if s.xphase = .rest ∧ s.dphase = .idle then
      match s.rxq with
      | [] => advance s
      | b :: q => { advance s with rxq := q, xphase := if b = 0x72#8 then .armed else .rest }
    else advance s)) ∧
  (∀ s : State, nextAgentStep s ≠ .xFetch → ∃ q, (stepState s).rxq = s.rxq ++ q)

/-- R122: `0x72` is `READ_RESET`, and its six steps with nothing interleaved, under the default unbounded `TX_DEPTH`,
consume the byte, push the two bytes of the pre-clear count high byte first, clear the count and come back to `REST`. That
one `exec` is the one step that `XPHASE` names and checks no enabling condition, so that `DPHASE` is unconstrained here, is
the model's choice (log entry 8). `ReadResetRunsInEveryPhase` has the finite `TX_DEPTH`. -/
def Obligations.ReadResetSendsAndClears : Prop :=
  decodeCmd 0x72#8 = .readReset ∧
  ∀ (s : State) (q : List Byte),
    s.xphase = .rest → s.rxq = 0x72#8 :: q → s.params.txDepth = none →
    execSeq (List.replicate 6 .readReset) s = .next
      { s with
        rxq := q, latch := s.count, count := 0x0000#16, inh := false, xphase := .rest,
        txq := s.txq ++ [frameHi s.count, frameLo s.count] }

/-- R122 step by step: what the meaning of `READ_RESET` does in each value of `XPHASE`, with its frame. That `exec` of
`READ_RESET` is the one step that `XPHASE` names, with `DPHASE` and `RXQ` unchecked, is the model's choice (log entry 8);
so is the last clause, that it goes on when `TXQ` is full (log entry 7). -/
def Obligations.ReadResetRunsInEveryPhase : Prop :=
  ∀ s : State,
    (s.xphase = .rest → exec .readReset s = .next { s with rxq := s.rxq.tail, xphase := .armed }) ∧
    (s.xphase = .armed → exec .readReset s = .next { s with inh := true, xphase := .masked }) ∧
    (s.xphase = .masked →
      exec .readReset s = .next { s with latch := s.count, count := 0x0000#16, xphase := .taken }) ∧
    (s.xphase = .taken → exec .readReset s = .next { s with inh := false, xphase := .sendHi }) ∧
    (s.xphase = .sendHi → hasRoom s.params.txDepth s.txq = true →
      exec .readReset s = .next { s with txq := s.txq ++ [frameHi s.latch], xphase := .sendLo }) ∧
    (s.xphase = .sendLo → hasRoom s.params.txDepth s.txq = true →
      exec .readReset s = .next { s with txq := s.txq ++ [frameLo s.latch], xphase := .rest }) ∧
    (s.xphase = .sendHi ∨ s.xphase = .sendLo → hasRoom s.params.txDepth s.txq = false →
      ∃ q, fitsDepth s.params.txDepth q = true ∧ exec .readReset s = .next
        { s with txq := q, xphase := if s.xphase = .sendHi then .sendLo else .rest })

/-- R123: where a byte is fetched (the conditions of R121), every row of `IGNORE` whose word it is consumes that byte and
changes nothing else; every byte but `0x72` decodes to such a row. -/
def Obligations.IgnoreConsumesAndDoesNothing : Prop :=
  ∀ (b : Byte) (q : List Byte) (s : State), s.xphase = .rest → s.dphase = .idle → s.rxq = b :: q →
    (∀ i ∈ [Instr.ignore1xxxxxxx b, .ignore00xxxxxx b, .ignore010xxxxx b, .ignore0110xxxx b, .ignore01111xxx b,
        .ignore011101xx b, .ignore0111000x b, .ignore01110011], i.wellFormed = true → encode i = .cmd b →
      decodeCmd b = i ∧ exec i s = .next { s with rxq := q }) ∧
    (b ≠ 0x72#8 → exec (decodeCmd b) s = .next { s with rxq := q })

/-- What `exec` of an `IGNORE` row does in every state, with any operand: it takes a byte off `RXQ`, if there is one, and
writes `XPHASE` with `REST`. Only at `REST` with the byte waiting does the spec take this step
(`IgnoreConsumesAndDoesNothing`); that `exec` is defined on the other states, and what it does there, is the model's choice
(log entry 8). -/
def Obligations.IgnoreRunsInEveryState : Prop :=
  (∀ (b : Byte) (s : State),
    exec (.ignore1xxxxxxx b) s = .next { s with rxq := s.rxq.tail, xphase := .rest } ∧
    exec (.ignore00xxxxxx b) s = .next { s with rxq := s.rxq.tail, xphase := .rest } ∧
    exec (.ignore010xxxxx b) s = .next { s with rxq := s.rxq.tail, xphase := .rest } ∧
    exec (.ignore0110xxxx b) s = .next { s with rxq := s.rxq.tail, xphase := .rest } ∧
    exec (.ignore01111xxx b) s = .next { s with rxq := s.rxq.tail, xphase := .rest } ∧
    exec (.ignore011101xx b) s = .next { s with rxq := s.rxq.tail, xphase := .rest } ∧
    exec (.ignore0111000x b) s = .next { s with rxq := s.rxq.tail, xphase := .rest } ∧
    exec .ignore01110011 s = .next { s with rxq := s.rxq.tail, xphase := .rest }) ∧
  (∀ (b : Byte) (s : State), b ≠ 0x72#8 →
    exec (decodeCmd b) s = .next { s with rxq := s.rxq.tail, xphase := .rest })

/-- R124, R125: the two frame writes, where `TXQ` has room (always, under the default unbounded `TX_DEPTH`; the last clause
of `ReadResetRunsInEveryPhase` has the full `TXQ`); and the steps of the decoder that come between them never change
`LATCH`. The two `else advance s`, that a step tried while not enabled only passes the turn, are the model's choice (log
entry 6; trace and turn, log entry 5). -/
def Obligations.FrameWritesPushHighThenLow : Prop :=
  (∀ s : State, hasRoom s.params.txDepth s.txq = true →
    (nextAgentStep s = .xSendHi → step s = .next
      (if s.xphase = .sendHi ∧ s.dphase = .idle then
        { advance s with txq := s.txq ++ [frameHi s.latch], xphase := .sendLo } else advance s)) ∧
    (nextAgentStep s = .xSendLo → step s = .next
      (if s.xphase = .sendLo ∧ s.dphase = .idle then
        { advance s with txq := s.txq ++ [frameLo s.latch], xphase := .rest } else advance s))) ∧
  (∀ s : State, (nextAgentStep s).agent = .decoder →
    (stepState s).latch = s.latch ∧ (stepState s).xphase = s.xphase ∧ (stepState s).txq = s.txq)

/-- R54: the receiver rebuilds the signed count from the two bytes of a frame. -/
def Obligations.ReceiverRebuildsTheCount : Prop :=
  ∀ v : Word, frameHi v ++ frameLo v = v ∧ rebuildCount (frameHi v) (frameLo v) = sint16 v

/-- R128, R129: the environment's two steps on the byte queues; `delivered` is the observation (R173; kept in State by log
entry 4). That on a full `RXQ` or an empty `TXQ` only the turn passes is the model's choice (log entry 6; trace and turn,
log entry 5): the spec has no such step. -/
def Obligations.TransportStepsAreFifo : Prop :=
  (∀ (s : State) (b : Byte), nextAgentStep s = .eRx b → step s = .next
    (if hasRoom s.params.rxDepth s.rxq = true then { advance s with rxq := s.rxq ++ [b] } else advance s)) ∧
  (∀ s : State, nextAgentStep s = .eTx → step s = .next
    (match s.txq with
      | [] => advance s
      | o :: q => { advance s with txq := q, delivered := s.delivered ++ [o] }))

/-! ### The interrupt -/

/-- R71: interrupt entry, enabled exactly when `PEND = 1` and `INH = 0`, with everything it changes; where R24's
invariant holds it then finds the handler idle and the exchange agent outside its critical section. That otherwise only
the turn passes is the model's choice (log entry 6; trace and turn, log entry 5). -/
def Obligations.InterruptEntrySamplesAndMasks : Prop :=
  (∀ s : State, nextAgentStep s = .dEnter → step s = .next
    (if s.pend = true ∧ s.inh = false then
      { advance s with pend := false, inh := true, cur := s.pins, dphase := .active } else advance s)) ∧
  (∀ s : State, s.inhibitScoped → enabled .dEnter s = true → s.dphase = .idle ∧ ¬ s.inCritical)

/-- R142, R143: a level change writes `PINS` and sets `PEND`, but while the handler runs it sets it by `masked_latch`:
1 under `latch`, 0 under `drop`, a free bit under `either`. A change to the present level is no step of the spec; that
the model then only passes the turn is its choice (log entry 6; trace and turn, log entry 5; the free bit, log entry
12). -/
def Obligations.LevelChangeLatchesTheTrigger : Prop :=
  ∀ (s : State) (v : PinState), nextAgentStep s = .ePin v → ∃ m : Bool,
    (s.params.maskedEdgePolicy = .latch → m = true) ∧
    (s.params.maskedEdgePolicy = .drop → m = false) ∧
    step s = .next
      (if v = s.pins then advance s
      else { advance s with pins := v, pend := if s.dphase = .active then s.pend || m else true })

/-- R144: two steps set `INH`, two clear it; a pending trigger waits while `INH = 1` and only `D_ENTER` clears it. -/
def Obligations.DeliveryIsMaskedOnlyByItsOwners : Prop :=
  ∀ s t : State, step s = .next t →
    (s.inh = false → t.inh = true → happens .dEnter s = true ∨ happens .xMask s = true) ∧
    (s.inh = true → t.inh = false → happens .dCommit s = true ∨ happens .xUnmask s = true) ∧
    (s.inh = true → s.pend = true → t.pend = true) ∧
    (s.pend = true → t.pend = false → happens .dEnter s = true ∧ s.inh = false)

/-- R90: the `PREV` that a handler run leaves is the level of the lines at its entry, whatever happened in between. -/
def Obligations.PrevIsTheSampleOfTheRun : Prop :=
  ∀ (s : State) (k : Nat), s.inhibitScoped → happens .dEnter s = true →
    committedDeltas k (stepState s) = [] → happens .dCommit (after k (stepState s)) = true →
    (stepState (after k (stepState s))).prev = s.pins

/-- R70, R147: once entered, the handler stays active, with `D_COMMIT` enabled, until `D_COMMIT` is taken. -/
def Obligations.HandlerEndsOnlyByItsCommit : Prop :=
  ∀ (s : State) (k : Nat), s.dphase = .active → committedDeltas k s = [] →
    (after k s).dphase = .active ∧ enabled .dCommit (after k s) = true

/-! ### Reset and invariants -/

/-- R26: the state after `RESET(p)`, for every `p`, every value of the two unspecified latches and every parameter
setting; nothing but the environment can move it. -/
def Obligations.ResetLeavesTheQuietState : Prop :=
  ∀ (q : Params) (p c : PinState) (l : Word) (tr : List AgentStep),
    let r := State.resetAt q p c l tr
    r.pins = p ∧ r.prev = p ∧ r.cur = c ∧ r.count = 0x0000#16 ∧ r.latch = l ∧ r.pend = false ∧ r.inh = false ∧
    r.dphase = .idle ∧ r.xphase = .rest ∧ r.rxq = [] ∧ r.txq = [] ∧ r.quiescent ∧
    ∀ a : AgentStep, a.agent ≠ .environment → enabled a r = false

/-- R24 and the depths of R4 at reset; `State.reset` is one of these states by the model's choice of `p` and of the two
latches (log entries 1, 2). -/
def Obligations.ResetMeetsTheInvariants : Prop :=
  (∀ (q : Params) (p c : PinState) (l : Word) (tr : List AgentStep),
    (State.resetAt q p c l tr).inhibitScoped ∧ (State.resetAt q p c l tr).queuesFit ∧
    (State.resetAt q p c l tr).newestSampled) ∧
  State.reset.inhibitScoped ∧ State.reset.queuesFit ∧ State.reset.newestSampled

/-- R24: every step keeps the invariant, from every state that meets it. -/
def Obligations.StepKeepsInhibitScoped : Prop :=
  ∀ s t : State, s.inhibitScoped → step s = .next t → t.inhibitScoped

/-- R4, R19, R20: every step keeps both queues within their depths. That a push onto a full `TXQ` stays within its depth
is the model's choice (log entry 7). -/
def Obligations.StepKeepsQueuesWithinDepth : Prop :=
  ∀ s t : State, s.queuesFit → step s = .next t → t.queuesFit

/-- R142, R143 under `latch`: every step keeps that with `PEND = 0` the newest sample is the present level of the lines.
Levels that came and went while `PEND = 1` are still missed under every policy (R174, R182): see
`ChangesMergedInPendAreMissed`. -/
def Obligations.LatchPolicyKeepsNewestSample : Prop :=
  ∀ s t : State, s.params.maskedEdgePolicy = .latch → s.newestSampled → step s = .next t →
    t.newestSampled ∧ t.params.maskedEdgePolicy = .latch

/-- R8 (a), R42, R110: while the handler runs no step of the exchange agent is enabled, and in the critical section no
step of the decoder is. -/
def Obligations.HandlerAndCriticalSectionExclude : Prop :=
  ∀ s : State, s.inhibitScoped →
    (s.dphase = .active → ∀ l : AgentStep, l.agent = .exchange → enabled l s = false) ∧
    (s.inCritical → ∀ l : AgentStep, l.agent = .decoder → enabled l s = false)

/-- R43, R110: from `MASKED` nothing but `X_TAKE` leaves, nothing disables it, and the count it will take is fixed. -/
def Obligations.NothingDisablesTheTake : Prop :=
  ∀ s t : State, s.xphase = .masked → happens .xTake s = false → step s = .next t →
    t.xphase = .masked ∧ enabled .xTake t = true ∧ (s.inhibitScoped → t.count = s.count ∧ t.prev = s.prev)

/-- R25, R112: which steps write each element, for every step from every state. The model's own fields are named too. -/
def Obligations.OnlyItsOwnersWriteAnElement : Prop :=
  ∀ s t : State, step s = .next t →
    (t.pins = s.pins ∨ ∃ v, happens (.ePin v) s = true) ∧
    (t.prev = s.prev ∨ happens .dCommit s = true) ∧
    (t.cur = s.cur ∨ happens .dEnter s = true) ∧
    (t.count = s.count ∨ happens .dCommit s = true ∨ happens .xTake s = true) ∧
    (t.latch = s.latch ∨ happens .xTake s = true) ∧
    (t.pend = s.pend ∨ happens .dEnter s = true ∨ ∃ v, happens (.ePin v) s = true) ∧
    (t.inh = s.inh ∨ happens .dEnter s = true ∨ happens .dCommit s = true ∨ happens .xMask s = true ∨
      happens .xUnmask s = true) ∧
    (t.dphase = s.dphase ∨ happens .dEnter s = true ∨ happens .dCommit s = true) ∧
    (t.xphase = s.xphase ∨ ∃ l : AgentStep, l.agent = .exchange ∧ happens l s = true) ∧
    (t.rxq = s.rxq ∨ happens .xFetch s = true ∨ ∃ b, happens (.eRx b) s = true) ∧
    (t.txq = s.txq ∨ happens .xSendHi s = true ∨ happens .xSendLo s = true ∨ happens .eTx s = true) ∧
    (t.delivered = s.delivered ∨ happens .eTx s = true) ∧
    t.params = s.params

/-- R173: where R24's invariant holds, a state is quiescent exactly when no step of the two internal agents is enabled
and every response owed has been delivered. -/
def Obligations.QuiescentMeansNothingToDo : Prop :=
  ∀ s : State, s.inhibitScoped →
    (s.quiescent ↔ (∀ l : AgentStep, l.agent ≠ .environment → enabled l s = false) ∧ s.txq = [])

/-! ### Encodings -/

/-- R56, R57: decoding the bytes of a well-formed instruction's word gives it back and leaves the bytes after it. For the
sixteen `TRANS` rows the bytes are the model's choice (log entry 9): one byte with four zero high bits, where R50 has the
code never transmitted. -/
def Obligations.DecodeEncodeRoundTrip : Prop :=
  ∀ (i : Instr) (rest : List Byte), i.wellFormed = true →
    decode (encode i).format ((encode i).bytes ++ rest) = .ok (i, rest)

/-- R56, R57, R58: every word of either format decodes to a well-formed instruction whose word it is. -/
def Obligations.EncodeDecodeRoundTrip : Prop :=
  ∀ c : Code, (decodeCode c).wellFormed = true ∧ encode (decodeCode c) = c

/-- R57 (and R56 for the codes): exactly one row of the table matches each word, and it is the decoded row. -/
def Obligations.EveryWordMatchesExactlyOneRow : Prop :=
  (∀ b : Byte, opcodeTable.countP (fun r => r.covers (.cmd b)) = 1 ∧
    (opcodeTable[(decodeCmd b).rowIndex]?.map fun r => r.covers (.cmd b)) = some true) ∧
  (∀ c : TransCode, opcodeTable.countP (fun r => r.covers (.trans c)) = 1 ∧
    (opcodeTable[(decodeTrans c).rowIndex]?.map fun r => r.covers (.trans c)) = some true)

/-- Words written out from R56 and R57, with the bytes R58 names. -/
def Obligations.WordsOfTheTableDecode : Prop :=
  decodeTrans 0b0010#4 = .qInc00_10 ∧ decodeTrans 0b0111#4 = .qDec01_11 ∧ decodeTrans 0b1001#4 = .qSkip10_01 ∧
  decodeTrans 0b1111#4 = .qHold11_11 ∧ decodeCmd 0b01110010#8 = .readReset ∧
  decodeCmd 0b01110011#8 = .ignore01110011 ∧ decodeCmd 0b01010010#8 = .ignore010xxxxx 0x52#8 ∧
  decodeCmd 0b11110010#8 = .ignore1xxxxxxx 0xF2#8 ∧ decodeCmd 0b00001101#8 = .ignore00xxxxxx 0x0D#8

/-! ### The step -/

/-- What a step runs: `D_COMMIT` the row of `PREV : CUR`, `X_FETCH` the row of the oldest byte, the other steps of the
exchange agent the `READ_RESET` in progress. The model's choices: that each of those other steps is one `exec .readReset`
(log entry 8), and that around `exec` a step uses up the trace's line and counts the turn (log entry 5). -/
def Obligations.StepRunsTheDecodedInstruction : Prop :=
  ∀ s : State,
    (nextAgentStep s = .dCommit → s.dphase = .active →
      step s = exec (decodeTrans (transCode s.prev s.cur)) (advance s)) ∧
    (∀ b q, nextAgentStep s = .xFetch → s.xphase = .rest → s.dphase = .idle → s.rxq = b :: q →
      step s = exec (decodeCmd b) (advance s)) ∧
    (∀ l ∈ [AgentStep.xMask, .xTake, .xUnmask, .xSendHi, .xSendLo], nextAgentStep s = l → enabled l s = true →
      step s = exec .readReset (advance s))

/-- R9, and beyond the reachable states and the steps taken of which R9 speaks: every instruction and every step ends in a
defined state, from every state. The model's choices: that `exec` of a row is defined where the block would not take the
step (log entry 8), that a step tried while not enabled has a next state (log entry 6), and that a push on a full `TXQ`
goes on (log entry 7). -/
def Obligations.NoStepFails : Prop :=
  (∀ (i : Instr) (s : State), ∃ t, exec i s = .next t) ∧ ∀ s : State, ∃ t, step s = .next t

/-- A word of the opcode table placed for the next step is run by it. How a word is placed is the model's choice (log
entries 5, 9). -/
def Obligations.PlacedWordRunsNext : Prop :=
  ∀ s : State,
    (∀ c : TransCode, step (s.withFetchWord 4 c.toNat) =
      exec (decodeTrans c) (advance (s.withFetchWord 4 c.toNat))) ∧
    (∀ b : Byte, 16 ≤ b.toNat → step (s.withFetchWord 8 b.toNat) =
      exec (decodeCmd b) (advance (s.withFetchWord 8 b.toNat)))

/-! ### Whole runs -/

/-- R41: along every run from `RESET(p)`, the count is the committed deltas less the values taken, modulo 65536; and from
every state, the count it starts with besides. -/
def Obligations.ConservationLaw : Prop :=
  (∀ (s : State) (k : Nat), ((after k s).count.toNat : Int) =
    (s.count.toNat + (committedDeltas k s).sum - ((takenValues k s).map fun v => (v.toNat : Int)).sum) % 65536) ∧
  ∀ (q : Params) (p c : PinState) (l : Word) (tr : List AgentStep) (k : Nat),
    let r := State.resetAt q p c l tr
    ((after k r).count.toNat : Int) =
      ((committedDeltas k r).sum - ((takenValues k r).map fun v => (v.toNat : Int)).sum) % 65536

/-- R25 with the values of R71, R72 and R108: what each step leaves in `COUNT`, `LATCH`, `PREV` and `CUR`, for every step
from every state. A turn in which nothing happens leaves all four, which is the model's choice (log entry 6). -/
def Obligations.StepMovesTheDataRegisters : Prop :=
  ∀ s t : State, step s = .next t →
    t.count = (if happens .xTake s then 0x0000#16
      else if happens .dCommit s then s.count + sext16 (delta s.prev s.cur) else s.count) ∧
    t.latch = (if happens .xTake s then s.count else s.latch) ∧
    t.prev = (if happens .dCommit s then s.cur else s.prev) ∧
    t.cur = (if happens .dEnter s then s.pins else s.cur)

/-- R40: what a take latches is the sum, modulo 65536, of the deltas committed since the take before it, or since
`RESET` where there is none. -/
def Obligations.TakeReportsTheCommitsSinceTheLast : Prop :=
  (∀ (s : State) (k : Nat), happens .xTake s = true → takenValues k (stepState s) = [] →
    happens .xTake (after k (stepState s)) = true →
    (stepState (after k (stepState s))).latch = BitVec.ofInt 16 (committedDeltas k (stepState s)).sum) ∧
  (∀ (q : Params) (p c : PinState) (l : Word) (tr : List AgentStep) (k : Nat),
    takenValues k (State.resetAt q p c l tr) = [] →
    happens .xTake (after k (State.resetAt q p c l tr)) = true →
    (stepState (after k (State.resetAt q p c l tr))).latch =
      BitVec.ofInt 16 (committedDeltas k (State.resetAt q p c l tr)).sum)

/-- R94: over a segment with no take, the count changes by the number of `+1` commits less the number of `-1` ones. -/
def Obligations.CountingLaw : Prop :=
  ∀ (s : State) (k : Nat), takenValues k s = [] →
    (after k s).count = s.count + BitVec.ofNat 16 ((committedDeltas k s).count 1) -
      BitVec.ofNat 16 ((committedDeltas k s).count (-1))

/-- R93 over the meanings alone: four single steps in one direction come back to the same PinState, and the four rows one
after another change the count by 4. No run of the spec has this sequence of four commits with no `D_ENTER` between them:
that `exec` of a row checks neither `DPHASE` nor `CUR`, so that the rows compose, is the model's choice (log entry 8).
`ServedFullCycleCountsFour` says it of the steps of a run. -/
def Obligations.FullCycleCountsFour : Prop :=
  ∀ (s : State) (a b c d e : PinState) (x : Int), (x = 1 ∨ x = -1) →
    delta a b = x → delta b c = x → delta c d = x → delta d e = x →
    e = a ∧
    execSeq [decodeTrans (transCode a b), decodeTrans (transCode b c), decodeTrans (transCode c d),
        decodeTrans (transCode d e)] s =
      .next { s with
        count := s.count + BitVec.ofInt 16 (Config.countsPerCycle * x), prev := a, inh := false, dphase := .idle }

/-- R95 over the meanings alone: a row and the row back, one after the other, leave the count as it was. No `E_PIN` and no
`D_ENTER` stands between them: that `exec` of a row checks neither `DPHASE` nor `CUR`, so that the rows compose, is the
model's choice (log entry 8). `ServedBouncesCancel` says it of the steps of a run. -/
def Obligations.BounceCancels : Prop :=
  ∀ (s : State) (a b : PinState),
    execSeq [decodeTrans (transCode a b), decodeTrans (transCode b a)] s =
      .next { s with prev := a, inh := false, dphase := .idle }

/-- R32, R33, R38, R130, under an unbounded `TX_DEPTH`: over any segment of a run, the bytes delivered, then those waiting
in `TXQ`, then those still owed, gain the frames of the values taken, in order, each high byte first; along a run from
`RESET(p)` they are those frames. -/
def Obligations.OutboundBytesAreTheTakenFrames : Prop :=
  (∀ (s : State) (k : Nat), s.params.txDepth = none →
    (after k s).delivered ++ (after k s).txq ++ owedBytes (after k s) =
      s.delivered ++ s.txq ++ owedBytes s ++ (takenValues k s).flatMap frameBytes) ∧
  ∀ (q : Params) (p c : PinState) (l : Word) (tr : List AgentStep) (k : Nat), q.txDepth = none →
    let r := State.resetAt q p c l tr
    (after k r).delivered ++ (after k r).txq ++ owedBytes (after k r) = (takenValues k r).flatMap frameBytes

/-- R32, R33, R38, R108 for one step from every state, under every `TX_DEPTH`, where a frame write finds room in `TXQ` (it
always does under an unbounded one): the outbound bytes gain the frame of the count at `X_TAKE`, and no other step adds,
drops or reorders one. -/
def Obligations.StepAddsOneFramePerTake : Prop :=
  ∀ s t : State, step s = .next t →
    (happens .xSendHi s = true ∨ happens .xSendLo s = true → hasRoom s.params.txDepth s.txq = true) →
    t.delivered ++ t.txq ++ owedBytes t =
      s.delivered ++ s.txq ++ owedBytes s ++ (if happens .xTake s then frameBytes s.count else [])

/-- R126, R127: over any segment, the takes together with the read-commands consumed and not yet taken are the
read-commands consumed in it and those left over from before. -/
def Obligations.OneTakePerReadCommand : Prop :=
  ∀ (s : State) (k : Nat),
    (takenValues k s).length + untaken (after k s) = (fetchedBytes k s).count 0x72#8 + untaken s

/-- R37: bytes are consumed in the order they arrived, each exactly once, and only in `REST`. -/
def Obligations.CommandsAreServedInOrder : Prop :=
  (∀ (s : State) (k : Nat), fetchedBytes k s ++ (after k s).rxq = s.rxq ++ receivedBytes k s) ∧
  (∀ s : State, s.xphase ≠ .rest → happens .xFetch s = false)

/-- R25, R26: no step reads `CUR` or `LATCH` before it is written: two runs from `RESET(p)` that differ in the two
unspecified latches alone agree in everything else for ever, and in the latches wherever they are read; and so do two
runs from any two such states. So the zeros that the model chose for them at reset (log entry 2) cannot be observed. -/
def Obligations.UnspecifiedLatchesAreNeverRead : Prop :=
  (∀ (a b : State) (k : Nat), a.agreesButUnreadLatches b → (after k a).agreesButUnreadLatches (after k b)) ∧
  ∀ (q : Params) (p c₁ c₂ : PinState) (l₁ l₂ : Word) (tr : List AgentStep) (k : Nat),
    let a := after k (State.resetAt q p c₁ l₁ tr)
    let b := after k (State.resetAt q p c₂ l₂ tr)
    a = { b with cur := a.cur, latch := a.latch } ∧
    (a.dphase = .active → a.cur = b.cur) ∧
    (a.xphase = .taken ∨ a.xphase = .sendHi ∨ a.xphase = .sendLo → a.latch = b.latch)

/-- R25: a step from two states that agree but for unread latches gives two states that agree so: the invariant of pairs
behind `UnspecifiedLatchesAreNeverRead`, from every pair that meets it. -/
def Obligations.StepKeepsAgreementButUnreadLatches : Prop :=
  ∀ a b a' b' : State, a.agreesButUnreadLatches b → step a = .next a' → step b = .next b' →
    a'.agreesButUnreadLatches b'

/-- R174, R182: a second level change that comes while the first still waits in `PEND` is merged with it. Two single steps
`x` in one direction count `2x` when each is served before the next, and nothing when they are merged, `PREV` being the
last level both times. The steps are named by the state's trace (log entry 5). -/
def Obligations.ChangesMergedInPendAreMissed : Prop :=
  ∀ (s : State) (b c : PinState) (x : Int), (x = 1 ∨ x = -1) →
    s.inh = false → s.dphase = .idle → s.prev = s.pins → delta s.pins b = x → delta b c = x →
    let served := after 6 { s with trace := pseudoEdge b ++ pseudoEdge c }
    let merged := after 4 { s with trace := [.ePin b, .ePin c, .dEnter, .dCommit] }
    (served.count = s.count + BitVec.ofInt 16 (2 * x) ∧ served.prev = c ∧ served.pend = false) ∧
    (merged.count = s.count ∧ merged.prev = c ∧ merged.pend = false)

/-- R93 in a run: four level changes, each a single step in one direction and each served before the next (`EDGE` of R61),
bring the lines back and change `COUNT` by 4 in that direction; of the rest of the block only `CUR` and `PEND` are other
than before. A `PEND` left over, where R61 does not admit `EDGE`, is served with the first of them. The
steps are named by the state's trace, and trace and turn are the model's own (log entry 5). -/
def Obligations.ServedFullCycleCountsFour : Prop :=
  ∀ (s : State) (b c d e : PinState) (tr : List AgentStep) (x : Int), (x = 1 ∨ x = -1) →
    s.inh = false → s.dphase = .idle → s.prev = s.pins →
    delta s.pins b = x → delta b c = x → delta c d = x → delta d e = x →
    e = s.pins ∧
    after 12 { s with trace := pseudoEdge b ++ pseudoEdge c ++ pseudoEdge d ++ pseudoEdge e ++ tr } =
      { s with
        count := s.count + BitVec.ofInt 16 (Config.countsPerCycle * x), cur := s.pins, pend := false,
        trace := tr, turn := s.turn + 12 }

/-- R95 in a run: the lines leave their level and come back any number of times, every edge served before the next (`EDGE`
of R61). `COUNT` and `PREV` end as they began; of the rest of the block only `CUR` and `PEND` are other than before. A
`PEND` left over, where R61 does not admit `EDGE`, is served with the first edge. The steps are named by the
state's trace, and trace and turn are the model's own (log entry 5). -/
def Obligations.ServedBouncesCancel : Prop :=
  ∀ (s : State) (b : PinState) (tr : List AgentStep) (n : Nat),
    s.inh = false → s.dphase = .idle → s.prev = s.pins → b ≠ s.pins →
    after (6 * (n + 1))
        { s with trace := (List.replicate (n + 1) (pseudoEdge b ++ pseudoEdge s.pins)).flatten ++ tr } =
      { s with cur := s.pins, pend := false, trace := tr, turn := s.turn + 6 * (n + 1) }
end

