-- ==== Sys2Proof/Laws/State.lean ====
section
/-! SUPPORT. The simp set of the state: what each update leaves in each field, so that no later proof unfolds a record
update. -/

namespace Sys2Proof.Machine

/-! ### `advance` -/

@[simp] theorem advance_pins (s : State) : (advance s).pins = s.pins := rfl
@[simp] theorem advance_prev (s : State) : (advance s).prev = s.prev := rfl
@[simp] theorem advance_cur (s : State) : (advance s).cur = s.cur := rfl
@[simp] theorem advance_count (s : State) : (advance s).count = s.count := rfl
@[simp] theorem advance_latch (s : State) : (advance s).latch = s.latch := rfl
@[simp] theorem advance_pend (s : State) : (advance s).pend = s.pend := rfl
@[simp] theorem advance_inh (s : State) : (advance s).inh = s.inh := rfl
@[simp] theorem advance_dphase (s : State) : (advance s).dphase = s.dphase := rfl
@[simp] theorem advance_xphase (s : State) : (advance s).xphase = s.xphase := rfl
@[simp] theorem advance_rxq (s : State) : (advance s).rxq = s.rxq := rfl
@[simp] theorem advance_txq (s : State) : (advance s).txq = s.txq := rfl
@[simp] theorem advance_delivered (s : State) : (advance s).delivered = s.delivered := rfl
@[simp] theorem advance_params (s : State) : (advance s).params = s.params := rfl
@[simp] theorem advance_trace (s : State) : (advance s).trace = s.trace.tail := rfl
@[simp] theorem advance_turn (s : State) : (advance s).turn = s.turn + 1 := rfl

/-! ### `rxPop` -/

@[simp] theorem rxPop_pins (s : State) : (rxPop s).pins = s.pins := rfl
@[simp] theorem rxPop_prev (s : State) : (rxPop s).prev = s.prev := rfl
@[simp] theorem rxPop_cur (s : State) : (rxPop s).cur = s.cur := rfl
@[simp] theorem rxPop_count (s : State) : (rxPop s).count = s.count := rfl
@[simp] theorem rxPop_latch (s : State) : (rxPop s).latch = s.latch := rfl
@[simp] theorem rxPop_pend (s : State) : (rxPop s).pend = s.pend := rfl
@[simp] theorem rxPop_inh (s : State) : (rxPop s).inh = s.inh := rfl
@[simp] theorem rxPop_dphase (s : State) : (rxPop s).dphase = s.dphase := rfl
@[simp] theorem rxPop_xphase (s : State) : (rxPop s).xphase = s.xphase := rfl
@[simp] theorem rxPop_rxq (s : State) : (rxPop s).rxq = s.rxq.tail := rfl
@[simp] theorem rxPop_txq (s : State) : (rxPop s).txq = s.txq := rfl
@[simp] theorem rxPop_delivered (s : State) : (rxPop s).delivered = s.delivered := rfl
@[simp] theorem rxPop_params (s : State) : (rxPop s).params = s.params := rfl
@[simp] theorem rxPop_trace (s : State) : (rxPop s).trace = s.trace := rfl
@[simp] theorem rxPop_turn (s : State) : (rxPop s).turn = s.turn := rfl

/-! ### `cntTake` -/

@[simp] theorem cntTake_pins (s : State) : (cntTake s).pins = s.pins := rfl
@[simp] theorem cntTake_prev (s : State) : (cntTake s).prev = s.prev := rfl
@[simp] theorem cntTake_cur (s : State) : (cntTake s).cur = s.cur := rfl
@[simp] theorem cntTake_count (s : State) : (cntTake s).count = 0x0000#16 := rfl
@[simp] theorem cntTake_latch (s : State) : (cntTake s).latch = s.count := rfl
@[simp] theorem cntTake_pend (s : State) : (cntTake s).pend = s.pend := rfl
@[simp] theorem cntTake_inh (s : State) : (cntTake s).inh = s.inh := rfl
@[simp] theorem cntTake_dphase (s : State) : (cntTake s).dphase = s.dphase := rfl
@[simp] theorem cntTake_xphase (s : State) : (cntTake s).xphase = s.xphase := rfl
@[simp] theorem cntTake_rxq (s : State) : (cntTake s).rxq = s.rxq := rfl
@[simp] theorem cntTake_txq (s : State) : (cntTake s).txq = s.txq := rfl
@[simp] theorem cntTake_delivered (s : State) : (cntTake s).delivered = s.delivered := rfl
@[simp] theorem cntTake_params (s : State) : (cntTake s).params = s.params := rfl
@[simp] theorem cntTake_trace (s : State) : (cntTake s).trace = s.trace := rfl
@[simp] theorem cntTake_turn (s : State) : (cntTake s).turn = s.turn := rfl

/-! ### `interruptEntry` -/

@[simp] theorem interruptEntry_pins (s : State) : (interruptEntry s).pins = s.pins := rfl
@[simp] theorem interruptEntry_prev (s : State) : (interruptEntry s).prev = s.prev := rfl
@[simp] theorem interruptEntry_cur (s : State) : (interruptEntry s).cur = s.pins := rfl
@[simp] theorem interruptEntry_count (s : State) : (interruptEntry s).count = s.count := rfl
@[simp] theorem interruptEntry_latch (s : State) : (interruptEntry s).latch = s.latch := rfl
@[simp] theorem interruptEntry_pend (s : State) : (interruptEntry s).pend = false := rfl
@[simp] theorem interruptEntry_inh (s : State) : (interruptEntry s).inh = true := rfl
@[simp] theorem interruptEntry_dphase (s : State) : (interruptEntry s).dphase = .active := rfl
@[simp] theorem interruptEntry_xphase (s : State) : (interruptEntry s).xphase = s.xphase := rfl
@[simp] theorem interruptEntry_rxq (s : State) : (interruptEntry s).rxq = s.rxq := rfl
@[simp] theorem interruptEntry_txq (s : State) : (interruptEntry s).txq = s.txq := rfl
@[simp] theorem interruptEntry_delivered (s : State) : (interruptEntry s).delivered = s.delivered := rfl
@[simp] theorem interruptEntry_params (s : State) : (interruptEntry s).params = s.params := rfl
@[simp] theorem interruptEntry_trace (s : State) : (interruptEntry s).trace = s.trace := rfl
@[simp] theorem interruptEntry_turn (s : State) : (interruptEntry s).turn = s.turn := rfl

/-! ### `interruptReturn` -/

@[simp] theorem interruptReturn_pins (s : State) : (interruptReturn s).pins = s.pins := rfl
@[simp] theorem interruptReturn_prev (s : State) : (interruptReturn s).prev = s.prev := rfl
@[simp] theorem interruptReturn_cur (s : State) : (interruptReturn s).cur = s.cur := rfl
@[simp] theorem interruptReturn_count (s : State) : (interruptReturn s).count = s.count := rfl
@[simp] theorem interruptReturn_latch (s : State) : (interruptReturn s).latch = s.latch := rfl
@[simp] theorem interruptReturn_pend (s : State) : (interruptReturn s).pend = s.pend := rfl
@[simp] theorem interruptReturn_inh (s : State) : (interruptReturn s).inh = false := rfl
@[simp] theorem interruptReturn_dphase (s : State) : (interruptReturn s).dphase = .idle := rfl
@[simp] theorem interruptReturn_xphase (s : State) : (interruptReturn s).xphase = s.xphase := rfl
@[simp] theorem interruptReturn_rxq (s : State) : (interruptReturn s).rxq = s.rxq := rfl
@[simp] theorem interruptReturn_txq (s : State) : (interruptReturn s).txq = s.txq := rfl
@[simp] theorem interruptReturn_delivered (s : State) : (interruptReturn s).delivered = s.delivered := rfl
@[simp] theorem interruptReturn_params (s : State) : (interruptReturn s).params = s.params := rfl
@[simp] theorem interruptReturn_trace (s : State) : (interruptReturn s).trace = s.trace := rfl
@[simp] theorem interruptReturn_turn (s : State) : (interruptReturn s).turn = s.turn := rfl

/-! ### `recordTransition` -/

@[simp] theorem recordTransition_pins (op : Word → Word) (c : PinState) (s : State) : (recordTransition op c s).pins = s.pins := rfl
@[simp] theorem recordTransition_prev (op : Word → Word) (c : PinState) (s : State) : (recordTransition op c s).prev = c := rfl
@[simp] theorem recordTransition_cur (op : Word → Word) (c : PinState) (s : State) : (recordTransition op c s).cur = s.cur := rfl
@[simp] theorem recordTransition_count (op : Word → Word) (c : PinState) (s : State) : (recordTransition op c s).count = op s.count := rfl
@[simp] theorem recordTransition_latch (op : Word → Word) (c : PinState) (s : State) : (recordTransition op c s).latch = s.latch := rfl
@[simp] theorem recordTransition_pend (op : Word → Word) (c : PinState) (s : State) : (recordTransition op c s).pend = s.pend := rfl
@[simp] theorem recordTransition_inh (op : Word → Word) (c : PinState) (s : State) : (recordTransition op c s).inh = false := rfl
@[simp] theorem recordTransition_dphase (op : Word → Word) (c : PinState) (s : State) : (recordTransition op c s).dphase = .idle := rfl
@[simp] theorem recordTransition_xphase (op : Word → Word) (c : PinState) (s : State) : (recordTransition op c s).xphase = s.xphase := rfl
@[simp] theorem recordTransition_rxq (op : Word → Word) (c : PinState) (s : State) : (recordTransition op c s).rxq = s.rxq := rfl
@[simp] theorem recordTransition_txq (op : Word → Word) (c : PinState) (s : State) : (recordTransition op c s).txq = s.txq := rfl
@[simp] theorem recordTransition_delivered (op : Word → Word) (c : PinState) (s : State) : (recordTransition op c s).delivered = s.delivered := rfl
@[simp] theorem recordTransition_params (op : Word → Word) (c : PinState) (s : State) : (recordTransition op c s).params = s.params := rfl
@[simp] theorem recordTransition_trace (op : Word → Word) (c : PinState) (s : State) : (recordTransition op c s).trace = s.trace := rfl
@[simp] theorem recordTransition_turn (op : Word → Word) (c : PinState) (s : State) : (recordTransition op c s).turn = s.turn := rfl

/-! ### `armExchange` -/

@[simp] theorem armExchange_pins (s : State) : (armExchange s).pins = s.pins := rfl
@[simp] theorem armExchange_prev (s : State) : (armExchange s).prev = s.prev := rfl
@[simp] theorem armExchange_cur (s : State) : (armExchange s).cur = s.cur := rfl
@[simp] theorem armExchange_count (s : State) : (armExchange s).count = s.count := rfl
@[simp] theorem armExchange_latch (s : State) : (armExchange s).latch = s.latch := rfl
@[simp] theorem armExchange_pend (s : State) : (armExchange s).pend = s.pend := rfl
@[simp] theorem armExchange_inh (s : State) : (armExchange s).inh = s.inh := rfl
@[simp] theorem armExchange_dphase (s : State) : (armExchange s).dphase = s.dphase := rfl
@[simp] theorem armExchange_xphase (s : State) : (armExchange s).xphase = .armed := rfl
@[simp] theorem armExchange_rxq (s : State) : (armExchange s).rxq = s.rxq.tail := rfl
@[simp] theorem armExchange_txq (s : State) : (armExchange s).txq = s.txq := rfl
@[simp] theorem armExchange_delivered (s : State) : (armExchange s).delivered = s.delivered := rfl
@[simp] theorem armExchange_params (s : State) : (armExchange s).params = s.params := rfl
@[simp] theorem armExchange_trace (s : State) : (armExchange s).trace = s.trace := rfl
@[simp] theorem armExchange_turn (s : State) : (armExchange s).turn = s.turn := rfl

/-! ### `discardByte` -/

@[simp] theorem discardByte_pins (s : State) : (discardByte s).pins = s.pins := rfl
@[simp] theorem discardByte_prev (s : State) : (discardByte s).prev = s.prev := rfl
@[simp] theorem discardByte_cur (s : State) : (discardByte s).cur = s.cur := rfl
@[simp] theorem discardByte_count (s : State) : (discardByte s).count = s.count := rfl
@[simp] theorem discardByte_latch (s : State) : (discardByte s).latch = s.latch := rfl
@[simp] theorem discardByte_pend (s : State) : (discardByte s).pend = s.pend := rfl
@[simp] theorem discardByte_inh (s : State) : (discardByte s).inh = s.inh := rfl
@[simp] theorem discardByte_dphase (s : State) : (discardByte s).dphase = s.dphase := rfl
@[simp] theorem discardByte_xphase (s : State) : (discardByte s).xphase = .rest := rfl
@[simp] theorem discardByte_rxq (s : State) : (discardByte s).rxq = s.rxq.tail := rfl
@[simp] theorem discardByte_txq (s : State) : (discardByte s).txq = s.txq := rfl
@[simp] theorem discardByte_delivered (s : State) : (discardByte s).delivered = s.delivered := rfl
@[simp] theorem discardByte_params (s : State) : (discardByte s).params = s.params := rfl
@[simp] theorem discardByte_trace (s : State) : (discardByte s).trace = s.trace := rfl
@[simp] theorem discardByte_turn (s : State) : (discardByte s).turn = s.turn := rfl

/-! ### `enterCritical` -/

@[simp] theorem enterCritical_pins (s : State) : (enterCritical s).pins = s.pins := rfl
@[simp] theorem enterCritical_prev (s : State) : (enterCritical s).prev = s.prev := rfl
@[simp] theorem enterCritical_cur (s : State) : (enterCritical s).cur = s.cur := rfl
@[simp] theorem enterCritical_count (s : State) : (enterCritical s).count = s.count := rfl
@[simp] theorem enterCritical_latch (s : State) : (enterCritical s).latch = s.latch := rfl
@[simp] theorem enterCritical_pend (s : State) : (enterCritical s).pend = s.pend := rfl
@[simp] theorem enterCritical_inh (s : State) : (enterCritical s).inh = true := rfl
@[simp] theorem enterCritical_dphase (s : State) : (enterCritical s).dphase = s.dphase := rfl
@[simp] theorem enterCritical_xphase (s : State) : (enterCritical s).xphase = .masked := rfl
@[simp] theorem enterCritical_rxq (s : State) : (enterCritical s).rxq = s.rxq := rfl
@[simp] theorem enterCritical_txq (s : State) : (enterCritical s).txq = s.txq := rfl
@[simp] theorem enterCritical_delivered (s : State) : (enterCritical s).delivered = s.delivered := rfl
@[simp] theorem enterCritical_params (s : State) : (enterCritical s).params = s.params := rfl
@[simp] theorem enterCritical_trace (s : State) : (enterCritical s).trace = s.trace := rfl
@[simp] theorem enterCritical_turn (s : State) : (enterCritical s).turn = s.turn := rfl

/-! ### `takeCount` -/

@[simp] theorem takeCount_pins (s : State) : (takeCount s).pins = s.pins := rfl
@[simp] theorem takeCount_prev (s : State) : (takeCount s).prev = s.prev := rfl
@[simp] theorem takeCount_cur (s : State) : (takeCount s).cur = s.cur := rfl
@[simp] theorem takeCount_count (s : State) : (takeCount s).count = 0x0000#16 := rfl
@[simp] theorem takeCount_latch (s : State) : (takeCount s).latch = s.count := rfl
@[simp] theorem takeCount_pend (s : State) : (takeCount s).pend = s.pend := rfl
@[simp] theorem takeCount_inh (s : State) : (takeCount s).inh = s.inh := rfl
@[simp] theorem takeCount_dphase (s : State) : (takeCount s).dphase = s.dphase := rfl
@[simp] theorem takeCount_xphase (s : State) : (takeCount s).xphase = .taken := rfl
@[simp] theorem takeCount_rxq (s : State) : (takeCount s).rxq = s.rxq := rfl
@[simp] theorem takeCount_txq (s : State) : (takeCount s).txq = s.txq := rfl
@[simp] theorem takeCount_delivered (s : State) : (takeCount s).delivered = s.delivered := rfl
@[simp] theorem takeCount_params (s : State) : (takeCount s).params = s.params := rfl
@[simp] theorem takeCount_trace (s : State) : (takeCount s).trace = s.trace := rfl
@[simp] theorem takeCount_turn (s : State) : (takeCount s).turn = s.turn := rfl

/-! ### `leaveCritical` -/

@[simp] theorem leaveCritical_pins (s : State) : (leaveCritical s).pins = s.pins := rfl
@[simp] theorem leaveCritical_prev (s : State) : (leaveCritical s).prev = s.prev := rfl
@[simp] theorem leaveCritical_cur (s : State) : (leaveCritical s).cur = s.cur := rfl
@[simp] theorem leaveCritical_count (s : State) : (leaveCritical s).count = s.count := rfl
@[simp] theorem leaveCritical_latch (s : State) : (leaveCritical s).latch = s.latch := rfl
@[simp] theorem leaveCritical_pend (s : State) : (leaveCritical s).pend = s.pend := rfl
@[simp] theorem leaveCritical_inh (s : State) : (leaveCritical s).inh = false := rfl
@[simp] theorem leaveCritical_dphase (s : State) : (leaveCritical s).dphase = s.dphase := rfl
@[simp] theorem leaveCritical_xphase (s : State) : (leaveCritical s).xphase = .sendHi := rfl
@[simp] theorem leaveCritical_rxq (s : State) : (leaveCritical s).rxq = s.rxq := rfl
@[simp] theorem leaveCritical_txq (s : State) : (leaveCritical s).txq = s.txq := rfl
@[simp] theorem leaveCritical_delivered (s : State) : (leaveCritical s).delivered = s.delivered := rfl
@[simp] theorem leaveCritical_params (s : State) : (leaveCritical s).params = s.params := rfl
@[simp] theorem leaveCritical_trace (s : State) : (leaveCritical s).trace = s.trace := rfl
@[simp] theorem leaveCritical_turn (s : State) : (leaveCritical s).turn = s.turn := rfl

/-! ### `pinChange` -/

@[simp] theorem pinChange_pins (v : PinState) (m : Bool) (s : State) : (pinChange v m s).pins = v := rfl
@[simp] theorem pinChange_prev (v : PinState) (m : Bool) (s : State) : (pinChange v m s).prev = s.prev := rfl
@[simp] theorem pinChange_cur (v : PinState) (m : Bool) (s : State) : (pinChange v m s).cur = s.cur := rfl
@[simp] theorem pinChange_count (v : PinState) (m : Bool) (s : State) : (pinChange v m s).count = s.count := rfl
@[simp] theorem pinChange_latch (v : PinState) (m : Bool) (s : State) : (pinChange v m s).latch = s.latch := rfl
@[simp] theorem pinChange_pend (v : PinState) (m : Bool) (s : State) : (pinChange v m s).pend = pendAfterChange s.dphase s.pend m := rfl
@[simp] theorem pinChange_inh (v : PinState) (m : Bool) (s : State) : (pinChange v m s).inh = s.inh := rfl
@[simp] theorem pinChange_dphase (v : PinState) (m : Bool) (s : State) : (pinChange v m s).dphase = s.dphase := rfl
@[simp] theorem pinChange_xphase (v : PinState) (m : Bool) (s : State) : (pinChange v m s).xphase = s.xphase := rfl
@[simp] theorem pinChange_rxq (v : PinState) (m : Bool) (s : State) : (pinChange v m s).rxq = s.rxq := rfl
@[simp] theorem pinChange_txq (v : PinState) (m : Bool) (s : State) : (pinChange v m s).txq = s.txq := rfl
@[simp] theorem pinChange_delivered (v : PinState) (m : Bool) (s : State) : (pinChange v m s).delivered = s.delivered := rfl
@[simp] theorem pinChange_params (v : PinState) (m : Bool) (s : State) : (pinChange v m s).params = s.params := rfl
@[simp] theorem pinChange_trace (v : PinState) (m : Bool) (s : State) : (pinChange v m s).trace = s.trace := rfl
@[simp] theorem pinChange_turn (v : PinState) (m : Bool) (s : State) : (pinChange v m s).turn = s.turn := rfl

/-! ### `receiveByte` -/

@[simp] theorem receiveByte_pins (b : Byte) (s : State) : (receiveByte b s).pins = s.pins := rfl
@[simp] theorem receiveByte_prev (b : Byte) (s : State) : (receiveByte b s).prev = s.prev := rfl
@[simp] theorem receiveByte_cur (b : Byte) (s : State) : (receiveByte b s).cur = s.cur := rfl
@[simp] theorem receiveByte_count (b : Byte) (s : State) : (receiveByte b s).count = s.count := rfl
@[simp] theorem receiveByte_latch (b : Byte) (s : State) : (receiveByte b s).latch = s.latch := rfl
@[simp] theorem receiveByte_pend (b : Byte) (s : State) : (receiveByte b s).pend = s.pend := rfl
@[simp] theorem receiveByte_inh (b : Byte) (s : State) : (receiveByte b s).inh = s.inh := rfl
@[simp] theorem receiveByte_dphase (b : Byte) (s : State) : (receiveByte b s).dphase = s.dphase := rfl
@[simp] theorem receiveByte_xphase (b : Byte) (s : State) : (receiveByte b s).xphase = s.xphase := rfl
@[simp] theorem receiveByte_rxq (b : Byte) (s : State) : (receiveByte b s).rxq = s.rxq ++ [b] := rfl
@[simp] theorem receiveByte_txq (b : Byte) (s : State) : (receiveByte b s).txq = s.txq := rfl
@[simp] theorem receiveByte_delivered (b : Byte) (s : State) : (receiveByte b s).delivered = s.delivered := rfl
@[simp] theorem receiveByte_params (b : Byte) (s : State) : (receiveByte b s).params = s.params := rfl
@[simp] theorem receiveByte_trace (b : Byte) (s : State) : (receiveByte b s).trace = s.trace := rfl
@[simp] theorem receiveByte_turn (b : Byte) (s : State) : (receiveByte b s).turn = s.turn := rfl

/-! ### `txPush`, `sendHigh`, `sendLow` -/

@[simp] theorem txPush_pins (b : Byte) (s : State) : (txPush b s).pins = s.pins := by
  unfold txPush; split <;> rfl
@[simp] theorem txPush_prev (b : Byte) (s : State) : (txPush b s).prev = s.prev := by
  unfold txPush; split <;> rfl
@[simp] theorem txPush_cur (b : Byte) (s : State) : (txPush b s).cur = s.cur := by
  unfold txPush; split <;> rfl
@[simp] theorem txPush_count (b : Byte) (s : State) : (txPush b s).count = s.count := by
  unfold txPush; split <;> rfl
@[simp] theorem txPush_latch (b : Byte) (s : State) : (txPush b s).latch = s.latch := by
  unfold txPush; split <;> rfl
@[simp] theorem txPush_pend (b : Byte) (s : State) : (txPush b s).pend = s.pend := by
  unfold txPush; split <;> rfl
@[simp] theorem txPush_inh (b : Byte) (s : State) : (txPush b s).inh = s.inh := by
  unfold txPush; split <;> rfl
@[simp] theorem txPush_dphase (b : Byte) (s : State) : (txPush b s).dphase = s.dphase := by
  unfold txPush; split <;> rfl
@[simp] theorem txPush_xphase (b : Byte) (s : State) : (txPush b s).xphase = s.xphase := by
  unfold txPush; split <;> rfl
@[simp] theorem txPush_rxq (b : Byte) (s : State) : (txPush b s).rxq = s.rxq := by
  unfold txPush; split <;> rfl
@[simp] theorem txPush_delivered (b : Byte) (s : State) : (txPush b s).delivered = s.delivered := by
  unfold txPush; split <;> rfl
@[simp] theorem txPush_params (b : Byte) (s : State) : (txPush b s).params = s.params := by
  unfold txPush; split <;> rfl
@[simp] theorem txPush_trace (b : Byte) (s : State) : (txPush b s).trace = s.trace := by
  unfold txPush; split <;> rfl
@[simp] theorem txPush_turn (b : Byte) (s : State) : (txPush b s).turn = s.turn := by
  unfold txPush; split <;> rfl
@[simp] theorem sendHigh_pins (s : State) : (sendHigh s).pins = s.pins := txPush_pins _ s
@[simp] theorem sendHigh_prev (s : State) : (sendHigh s).prev = s.prev := txPush_prev _ s
@[simp] theorem sendHigh_cur (s : State) : (sendHigh s).cur = s.cur := txPush_cur _ s
@[simp] theorem sendHigh_count (s : State) : (sendHigh s).count = s.count := txPush_count _ s
@[simp] theorem sendHigh_latch (s : State) : (sendHigh s).latch = s.latch := txPush_latch _ s
@[simp] theorem sendHigh_pend (s : State) : (sendHigh s).pend = s.pend := txPush_pend _ s
@[simp] theorem sendHigh_inh (s : State) : (sendHigh s).inh = s.inh := txPush_inh _ s
@[simp] theorem sendHigh_dphase (s : State) : (sendHigh s).dphase = s.dphase := txPush_dphase _ s
@[simp] theorem sendHigh_xphase (s : State) : (sendHigh s).xphase = .sendLo := rfl
@[simp] theorem sendHigh_rxq (s : State) : (sendHigh s).rxq = s.rxq := txPush_rxq _ s
@[simp] theorem sendHigh_txq (s : State) : (sendHigh s).txq = (txPush (frameHi s.latch) s).txq := rfl
@[simp] theorem sendHigh_delivered (s : State) : (sendHigh s).delivered = s.delivered := txPush_delivered _ s
@[simp] theorem sendHigh_params (s : State) : (sendHigh s).params = s.params := txPush_params _ s
@[simp] theorem sendHigh_trace (s : State) : (sendHigh s).trace = s.trace := txPush_trace _ s
@[simp] theorem sendHigh_turn (s : State) : (sendHigh s).turn = s.turn := txPush_turn _ s
@[simp] theorem sendLow_pins (s : State) : (sendLow s).pins = s.pins := txPush_pins _ s
@[simp] theorem sendLow_prev (s : State) : (sendLow s).prev = s.prev := txPush_prev _ s
@[simp] theorem sendLow_cur (s : State) : (sendLow s).cur = s.cur := txPush_cur _ s
@[simp] theorem sendLow_count (s : State) : (sendLow s).count = s.count := txPush_count _ s
@[simp] theorem sendLow_latch (s : State) : (sendLow s).latch = s.latch := txPush_latch _ s
@[simp] theorem sendLow_pend (s : State) : (sendLow s).pend = s.pend := txPush_pend _ s
@[simp] theorem sendLow_inh (s : State) : (sendLow s).inh = s.inh := txPush_inh _ s
@[simp] theorem sendLow_dphase (s : State) : (sendLow s).dphase = s.dphase := txPush_dphase _ s
@[simp] theorem sendLow_xphase (s : State) : (sendLow s).xphase = .rest := rfl
@[simp] theorem sendLow_rxq (s : State) : (sendLow s).rxq = s.rxq := txPush_rxq _ s
@[simp] theorem sendLow_txq (s : State) : (sendLow s).txq = (txPush (frameLo s.latch) s).txq := rfl
@[simp] theorem sendLow_delivered (s : State) : (sendLow s).delivered = s.delivered := txPush_delivered _ s
@[simp] theorem sendLow_params (s : State) : (sendLow s).params = s.params := txPush_params _ s
@[simp] theorem sendLow_trace (s : State) : (sendLow s).trace = s.trace := txPush_trace _ s
@[simp] theorem sendLow_turn (s : State) : (sendLow s).turn = s.turn := txPush_turn _ s

/-! ### `deliverByte` -/

@[simp] theorem deliverByte_pins (s : State) : (deliverByte s).pins = s.pins := by
  unfold deliverByte; split <;> rfl
@[simp] theorem deliverByte_prev (s : State) : (deliverByte s).prev = s.prev := by
  unfold deliverByte; split <;> rfl
@[simp] theorem deliverByte_cur (s : State) : (deliverByte s).cur = s.cur := by
  unfold deliverByte; split <;> rfl
@[simp] theorem deliverByte_count (s : State) : (deliverByte s).count = s.count := by
  unfold deliverByte; split <;> rfl
@[simp] theorem deliverByte_latch (s : State) : (deliverByte s).latch = s.latch := by
  unfold deliverByte; split <;> rfl
@[simp] theorem deliverByte_pend (s : State) : (deliverByte s).pend = s.pend := by
  unfold deliverByte; split <;> rfl
@[simp] theorem deliverByte_inh (s : State) : (deliverByte s).inh = s.inh := by
  unfold deliverByte; split <;> rfl
@[simp] theorem deliverByte_dphase (s : State) : (deliverByte s).dphase = s.dphase := by
  unfold deliverByte; split <;> rfl
@[simp] theorem deliverByte_xphase (s : State) : (deliverByte s).xphase = s.xphase := by
  unfold deliverByte; split <;> rfl
@[simp] theorem deliverByte_rxq (s : State) : (deliverByte s).rxq = s.rxq := by
  unfold deliverByte; split <;> rfl
@[simp] theorem deliverByte_params (s : State) : (deliverByte s).params = s.params := by
  unfold deliverByte; split <;> rfl
@[simp] theorem deliverByte_trace (s : State) : (deliverByte s).trace = s.trace := by
  unfold deliverByte; split <;> rfl
@[simp] theorem deliverByte_turn (s : State) : (deliverByte s).turn = s.turn := by
  unfold deliverByte; split <;> rfl
@[simp] theorem deliverByte_txq (s : State) : (deliverByte s).txq = s.txq.tail := by
  unfold deliverByte; split <;> simp_all
@[simp] theorem deliverByte_delivered (s : State) : (deliverByte s).delivered = s.delivered ++ s.txq.take 1 := by
  unfold deliverByte; split <;> simp_all

/-! ### `State.resetAt` -/

section
variable (q : Params) (p c : PinState) (l : Word) (t : List AgentStep)

@[simp] theorem resetAt_pins : (State.resetAt q p c l t).pins = p := rfl
@[simp] theorem resetAt_prev : (State.resetAt q p c l t).prev = p := rfl
@[simp] theorem resetAt_cur : (State.resetAt q p c l t).cur = c := rfl
@[simp] theorem resetAt_count : (State.resetAt q p c l t).count = 0x0000#16 := rfl
@[simp] theorem resetAt_latch : (State.resetAt q p c l t).latch = l := rfl
@[simp] theorem resetAt_pend : (State.resetAt q p c l t).pend = false := rfl
@[simp] theorem resetAt_inh : (State.resetAt q p c l t).inh = false := rfl
@[simp] theorem resetAt_dphase : (State.resetAt q p c l t).dphase = .idle := rfl
@[simp] theorem resetAt_xphase : (State.resetAt q p c l t).xphase = .rest := rfl
@[simp] theorem resetAt_rxq : (State.resetAt q p c l t).rxq = [] := rfl
@[simp] theorem resetAt_txq : (State.resetAt q p c l t).txq = [] := rfl
@[simp] theorem resetAt_delivered : (State.resetAt q p c l t).delivered = [] := rfl
@[simp] theorem resetAt_params : (State.resetAt q p c l t).params = q := rfl
@[simp] theorem resetAt_trace : (State.resetAt q p c l t).trace = t := rfl
@[simp] theorem resetAt_turn : (State.resetAt q p c l t).turn = 0 := rfl

end

end Sys2Proof.Machine
end

