-- ==== Sys2Proof/Laws/Ops.lean ====
section
/-! SUPPORT. One lemma for each shared operation, saying once what it does; the provers cite these and do not unfold the
operations. -/

namespace Sys2Proof.Machine

/-! ### Queues -/

@[simp] theorem hasRoom_none (q : List Byte) : hasRoom none q = true := rfl

@[simp] theorem withinDepth_none (q : List Byte) : withinDepth none q = q := rfl

@[simp] theorem fitsDepth_none (q : List Byte) : fitsDepth none q = true := rfl

@[simp] theorem fitsDepth_some (n : Nat) (q : List Byte) : fitsDepth (some n) q = decide (q.length ≤ n) := rfl

@[simp] theorem hasRoom_some (n : Nat) (q : List Byte) : hasRoom (some n) q = decide (q.length < n) := rfl

theorem fitsDepth_withinDepth (d : Option Nat) (q : List Byte) : fitsDepth d (withinDepth d q) = true := by
  cases d with
  | none => rfl
  | some n => exact decide_eq_true (List.length_take_le n q)

theorem fitsDepth_append_of_hasRoom {d : Option Nat} {q : List Byte} (b : Byte) (h : hasRoom d q = true) :
    fitsDepth d (q ++ [b]) = true := by
  cases d with
  | none => rfl
  | some n =>
    have : q.length < n := of_decide_eq_true h
    simpa using this

theorem fitsDepth_tail {d : Option Nat} {q : List Byte} (h : fitsDepth d q = true) : fitsDepth d q.tail = true := by
  cases d with
  | none => rfl
  | some n =>
    have : q.length ≤ n := of_decide_eq_true h
    exact decide_eq_true (by rw [List.length_tail]; omega)

/-- A push onto a queue with room appends; everything else is unchanged. -/
theorem txPush_of_room {b : Byte} {s : State} (h : hasRoom s.params.txDepth s.txq = true) :
    txPush b s = { s with txq := s.txq ++ [b] } := by simp [txPush, h]

/-- A push onto a full queue leaves a free value within the depth; everything else is unchanged. -/
theorem txPush_of_full {b : Byte} {s : State} (h : hasRoom s.params.txDepth s.txq = false) :
    txPush b s =
      { s with txq := withinDepth s.params.txDepth (Config.txPushFull s.turn s.txq b) } := by simp [txPush, h]

/-- Whatever is pushed, `TXQ` stays within its depth. -/
theorem txPush_fits (b : Byte) (s : State) : fitsDepth s.params.txDepth (txPush b s).txq = true := by
  by_cases h : hasRoom s.params.txDepth s.txq = true
  · rw [txPush_of_room h]; exact fitsDepth_append_of_hasRoom b h
  · rw [txPush_of_full (by simpa using h)]; exact fitsDepth_withinDepth _ _

/-! ### The counter and the sample -/

theorem cntInc_toNat (c : Word) : (cntInc c).toNat = (c.toNat + 1) % 65536 := by simp [cntInc, BitVec.toNat_add]

theorem cntDec_toNat (c : Word) : (cntDec c).toNat = (c.toNat + 65535) % 65536 := by
  simp [cntDec, BitVec.toNat_add]

@[simp] theorem cntHold_eq (c : Word) : cntHold c = c := rfl

theorem cntInc_eq_add_sext16 (c : Word) : cntInc c = c + sext16 1 := rfl

theorem cntDec_eq_add_sext16 (c : Word) : cntDec c = c + sext16 (-1) := rfl

theorem cntHold_eq_add_sext16 (c : Word) : cntHold c = c + sext16 0 := by simp [sext16]

@[simp] theorem samplePins_eq (s : State) : samplePins s = s.pins := rfl

/-! ### The interrupt bits -/

@[simp] theorem pendAfterChange_idle (p m : Bool) : pendAfterChange .idle p m = true := rfl

@[simp] theorem pendAfterChange_active (p m : Bool) : pendAfterChange .active p m = (p || m) := rfl

/-- A pending trigger is never discarded by a level change (R144). -/
@[simp] theorem pendAfterChange_of_pend (d : DPhase) (m : Bool) : pendAfterChange d true m = true := by
  cases d <;> simp

@[simp] theorem maskedLatch_latch (d : Bool) : maskedLatch .latch d = true := rfl

@[simp] theorem maskedLatch_drop (d : Bool) : maskedLatch .drop d = false := rfl

@[simp] theorem maskedLatch_either (d : Bool) : maskedLatch .either d = d := rfl

/-! ### Whole operations -/

theorem interruptEntry_eq (s : State) :
    interruptEntry s = { s with pend := false, inh := true, cur := s.pins, dphase := .active } := rfl

theorem recordTransition_eq (op : Word → Word) (c : PinState) (s : State) :
    recordTransition op c s = { s with count := op s.count, prev := c, inh := false, dphase := .idle } := rfl

theorem armExchange_eq (s : State) : armExchange s = { s with rxq := s.rxq.tail, xphase := .armed } := rfl

theorem discardByte_eq (s : State) : discardByte s = { s with rxq := s.rxq.tail, xphase := .rest } := rfl

theorem takeCount_eq (s : State) :
    takeCount s = { s with latch := s.count, count := 0x0000#16, xphase := .taken } := rfl

theorem deliverByte_of_cons {s : State} {o : Byte} {q : List Byte} (h : s.txq = o :: q) :
    deliverByte s = { s with txq := q, delivered := s.delivered ++ [o] } := by simp [deliverByte, h]

end Sys2Proof.Machine
end

