-- ==== Sys2Proof/Laws/PerInstr.lean ====
section
/-! SUPPORT. The family of per-instruction statements named in LAWS.json: the word of a well-formed instruction lies in
that instruction's own row of the opcode table. -/

namespace Sys2Proof.Laws.EncodingMatchesRow

/-- The encoding of a well-formed instruction matches its row's match and mask (30_encoding R56, R57). -/
def Statement (i : Instr) : Prop :=
  i.wellFormed = true → ∃ r, opcodeTable[i.rowIndex]? = some r ∧ r.covers (encode i) = true

/-- A command byte in a pattern is covered by the table's row with that pattern. -/
theorem covers_of_matchesPattern {m k b : Byte} {name : String} (h : matchesPattern m k b = true) :
    (OpcodeRow.mk name .cmd 8 m.toNat k.toNat).covers (.cmd b) = true := by
  have h' : b &&& k = m := by simpa [matchesPattern] using h
  have : b.toNat &&& k.toNat = m.toNat := by rw [← h', BitVec.toNat_and]
  simp [OpcodeRow.covers, Code.format, Code.word, this]

theorem qHold00_00 : Statement .qHold00_00 := fun _ => ⟨_, rfl, by decide⟩

theorem qDec00_01 : Statement .qDec00_01 := fun _ => ⟨_, rfl, by decide⟩

theorem qInc00_10 : Statement .qInc00_10 := fun _ => ⟨_, rfl, by decide⟩

theorem qSkip00_11 : Statement .qSkip00_11 := fun _ => ⟨_, rfl, by decide⟩

theorem qInc01_00 : Statement .qInc01_00 := fun _ => ⟨_, rfl, by decide⟩

theorem qHold01_01 : Statement .qHold01_01 := fun _ => ⟨_, rfl, by decide⟩

theorem qSkip01_10 : Statement .qSkip01_10 := fun _ => ⟨_, rfl, by decide⟩

theorem qDec01_11 : Statement .qDec01_11 := fun _ => ⟨_, rfl, by decide⟩

theorem qDec10_00 : Statement .qDec10_00 := fun _ => ⟨_, rfl, by decide⟩

theorem qSkip10_01 : Statement .qSkip10_01 := fun _ => ⟨_, rfl, by decide⟩

theorem qHold10_10 : Statement .qHold10_10 := fun _ => ⟨_, rfl, by decide⟩

theorem qInc10_11 : Statement .qInc10_11 := fun _ => ⟨_, rfl, by decide⟩

theorem qSkip11_00 : Statement .qSkip11_00 := fun _ => ⟨_, rfl, by decide⟩

theorem qInc11_01 : Statement .qInc11_01 := fun _ => ⟨_, rfl, by decide⟩

theorem qDec11_10 : Statement .qDec11_10 := fun _ => ⟨_, rfl, by decide⟩

theorem qHold11_11 : Statement .qHold11_11 := fun _ => ⟨_, rfl, by decide⟩

theorem readReset : Statement .readReset := fun _ => ⟨_, rfl, by decide⟩

theorem ignore1xxxxxxx (b : Byte) : Statement (.ignore1xxxxxxx b) := fun h => ⟨_, rfl, covers_of_matchesPattern h⟩

theorem ignore00xxxxxx (b : Byte) : Statement (.ignore00xxxxxx b) := fun h => ⟨_, rfl, covers_of_matchesPattern h⟩

theorem ignore010xxxxx (b : Byte) : Statement (.ignore010xxxxx b) := fun h => ⟨_, rfl, covers_of_matchesPattern h⟩

theorem ignore0110xxxx (b : Byte) : Statement (.ignore0110xxxx b) := fun h => ⟨_, rfl, covers_of_matchesPattern h⟩

theorem ignore01111xxx (b : Byte) : Statement (.ignore01111xxx b) := fun h => ⟨_, rfl, covers_of_matchesPattern h⟩

theorem ignore011101xx (b : Byte) : Statement (.ignore011101xx b) := fun h => ⟨_, rfl, covers_of_matchesPattern h⟩

theorem ignore0111000x (b : Byte) : Statement (.ignore0111000x b) := fun h => ⟨_, rfl, covers_of_matchesPattern h⟩

theorem ignore01110011 : Statement .ignore01110011 := fun _ => ⟨_, rfl, by decide⟩

end Sys2Proof.Laws.EncodingMatchesRow
end

