-- ==== Sys2Proof/Laws/Step.lean ====
section
/-! SUPPORT. What a step can do, said once: which state `takeStep` gives for each label, that it always gives one, and
the step as the state it gives. -/

namespace Sys2Proof.Machine

/-! ### Enabling does not read the model's own fields -/

@[simp] theorem enabled_advance (l : AgentStep) (s : State) : enabled l (advance s) = enabled l s := by
  cases l <;> rfl

@[simp] theorem nextAgentStep_of_trace {s : State} {l : AgentStep} {t : List AgentStep} (h : s.trace = l :: t) :
    nextAgentStep s = l := by simp [nextAgentStep, h]

/-! ### The meanings -/

/-- Every decoded `TRANS` row adds its 16-bit delta, writes `PREV` with `cur` and leaves the handler. -/
theorem exec_decodeTrans (p c : PinState) (s : State) :
    exec (decodeTrans (transCode p c)) s =
      .next { s with count := s.count + sext16 (delta p c), prev := c, inh := false, dphase := .idle } := by
  have hp : ∀ q : PinState, q = 0#2 ∨ q = 1#2 ∨ q = 2#2 ∨ q = 3#2 := by decide
  have hold : ∀ q : PinState, recordTransition cntHold q s =
      { s with count := s.count + sext16 0, prev := q, inh := false, dphase := .idle } := by
    intro q; rw [← cntHold_eq_add_sext16]; rfl
  rcases hp p with rfl | rfl | rfl | rfl <;> rcases hp c with rfl | rfl | rfl | rfl <;>
    first
      | rfl
      | exact congrArg Host.Outcome.next (hold _)

/-- The read-command decodes to `READ_RESET`. -/
@[simp] theorem decodeCmd_read : decodeCmd 0x72#8 = .readReset := by decide

/-- Every other byte is consumed and nothing else changes. -/
theorem exec_decodeCmd_of_ne {b : Byte} (h : b ≠ 0x72#8) (s : State) :
    exec (decodeCmd b) s = .next (discardByte s) := by
  have h' : b ≠ Config.cmdRead := h
  unfold decodeCmd
  rw [if_neg h']
  repeat' split
  all_goals rfl

/-- `READ_RESET` at rest consumes its byte and arms. -/
theorem execReadReset_rest {s : State} (h : s.xphase = .rest) : execReadReset s = .next (armExchange s) := by
  simp [execReadReset, h]

theorem execReadReset_armed {s : State} (h : s.xphase = .armed) : execReadReset s = .next (enterCritical s) := by
  simp [execReadReset, h]

theorem execReadReset_masked {s : State} (h : s.xphase = .masked) : execReadReset s = .next (takeCount s) := by
  simp [execReadReset, h]

theorem execReadReset_taken {s : State} (h : s.xphase = .taken) : execReadReset s = .next (leaveCritical s) := by
  simp [execReadReset, h]

theorem execReadReset_sendHi {s : State} (h : s.xphase = .sendHi) : execReadReset s = .next (sendHigh s) := by
  simp [execReadReset, h]

theorem execReadReset_sendLo {s : State} (h : s.xphase = .sendLo) : execReadReset s = .next (sendLow s) := by
  simp [execReadReset, h]

/-! ### One turn -/

/-- `XPHASE` after a fetch from a queue (R121). -/
def fetchPhase (q : List Byte) : XPhase :=
  match q with
  | [] => .rest
  | b :: _ => if b = 0x72#8 then .armed else .rest

@[simp] theorem fetchPhase_nil : fetchPhase [] = .rest := rfl

@[simp] theorem fetchPhase_read (q : List Byte) : fetchPhase (0x72#8 :: q) = .armed := rfl

theorem fetchPhase_of_ne {b : Byte} (h : b ≠ 0x72#8) (q : List Byte) : fetchPhase (b :: q) = .rest := by
  simp [fetchPhase, h]

/-- A fetch leaves `XPHASE` at `REST` or `ARMED`. -/
theorem fetchPhase_cases (q : List Byte) : fetchPhase q = .rest ∨ fetchPhase q = .armed := by
  cases q with
  | nil => exact .inl rfl
  | cons b q =>
    by_cases h : b = 0x72#8
    · subst h; exact .inr rfl
    · exact .inl (fetchPhase_of_ne h q)

/-- The state that a step gives when it is taken. -/
def performed (l : AgentStep) (s : State) : State :=
  match l with
  | .ePin v => pinChange v (drawMaskedLatch s) s
  | .eRx b => receiveByte b s
  | .eTx => deliverByte s
  | .dEnter => interruptEntry s
  | .dCommit => recordTransition (fun n => n + sext16 (delta s.prev s.cur)) s.cur s
  | .xFetch => { rxPop s with xphase := fetchPhase s.rxq }
  | .xMask => enterCritical s
  | .xTake => takeCount s
  | .xUnmask => leaveCritical s
  | .xSendHi => sendHigh s
  | .xSendLo => sendLow s

/-- An enabled step is taken and gives its one state. -/
theorem takeStep_of_enabled {l : AgentStep} {s : State} (h : enabled l s = true) :
    takeStep l s = .next (performed l s) := by
  rw [takeStep, if_pos h]
  cases l with
  | ePin v => rfl
  | eRx b => rfl
  | eTx => rfl
  | dEnter => rfl
  | dCommit => exact exec_decodeTrans s.prev s.cur s
  | xFetch =>
    have hx : s.xphase = .rest := by simp [enabled] at h; exact h.1.1
    cases hq : s.rxq with
    | nil => simp [enabled, rxAvail, hq] at h
    | cons b q =>
      by_cases hb : b = 0x72#8
      · subst hb
        simp only [perform, hq, performed, fetchPhase_read, decodeCmd_read]
        exact execReadReset_rest hx
      · simp only [perform, hq, performed, fetchPhase_of_ne hb]
        exact exec_decodeCmd_of_ne hb s
  | xMask => exact execReadReset_armed (by simp [enabled] at h; exact h.1)
  | xTake => exact execReadReset_masked (by simpa [enabled] using h)
  | xUnmask => exact execReadReset_taken (by simpa [enabled] using h)
  | xSendHi => exact execReadReset_sendHi (by simp [enabled] at h; exact h.1)
  | xSendLo => exact execReadReset_sendLo (by simp [enabled] at h; exact h.1)

/-- A step that is not enabled changes nothing. -/
theorem takeStep_of_not_enabled {l : AgentStep} {s : State} (h : enabled l s = false) :
    takeStep l s = .next s := by simp [takeStep, h]

/-- The state one step gives, whichever step it is. -/
theorem step_eq (s : State) :
    step s = .next (if enabled (nextAgentStep s) s then performed (nextAgentStep s) (advance s) else advance s) := by
  unfold step
  cases h : enabled (nextAgentStep s) s with
  | true => rw [takeStep_of_enabled (by simpa using h)]; rfl
  | false => rw [takeStep_of_not_enabled (by simpa using h)]; rfl

theorem stepState_eq (s : State) :
    stepState s =
      if enabled (nextAgentStep s) s then performed (nextAgentStep s) (advance s) else advance s := by
  rw [stepState, step_eq]

/-- Inversion of a step: the label named next was enabled and its state was given, or nothing happened. -/
theorem step_cases {s t : State} (h : step s = .next t) :
    (enabled (nextAgentStep s) s = true ∧ t = performed (nextAgentStep s) (advance s)) ∨
      (enabled (nextAgentStep s) s = false ∧ t = advance s) := by
  rw [step_eq] at h
  injection h with h
  cases he : enabled (nextAgentStep s) s with
  | true => exact .inl ⟨rfl, by rw [← h, he]; rfl⟩
  | false => exact .inr ⟨rfl, by rw [← h, he]; rfl⟩

@[simp] theorem after_zero (s : State) : after 0 s = s := rfl

@[simp] theorem after_succ (k : Nat) (s : State) : after (k + 1) s = after k (stepState s) := rfl

theorem after_add (j k : Nat) (s : State) : after (j + k) s = after k (after j s) := by
  induction j generalizing s with
  | zero => simp
  | succ j ih => rw [Nat.succ_add, after_succ, after_succ, ih]

end Sys2Proof.Machine
end

