-- ==== Sys2Proof/Laws/Run.lean ====
section
/-! SUPPORT. Runs: what one step leaves in `COUNT` and `LATCH`, whichever step it is, the two cases of a turn, and what a
served level change leaves. -/

namespace Sys2Proof.Machine

/-- A step that happens gives its one state. -/
theorem stepState_of_happens {s : State} {l : AgentStep} (h : happens l s = true) :
    stepState s = performed l (advance s) := by
  simp only [happens, Bool.and_eq_true, beq_iff_eq] at h
  rw [stepState_eq, h.1, if_pos h.2]

/-- In one turn exactly one step happens and gives its state, or none does and only the turn passes. -/
theorem turn_cases (s : State) :
    (∃ l, nextAgentStep s = l ∧ happens l s = true ∧ enabled l s = true ∧
      stepState s = performed l (advance s) ∧ ∀ l', l' ≠ l → happens l' s = false) ∨
    ((∀ l, happens l s = false) ∧ stepState s = advance s) := by
  cases he : enabled (nextAgentStep s) s with
  | true =>
    refine .inl ⟨nextAgentStep s, rfl, by simp [happens, he], he, by rw [stepState_eq, he]; rfl, ?_⟩
    intro l' hl
    have : (nextAgentStep s == l') = false := by simpa using fun h => hl h.symm
    simp [happens, this]
  | false =>
    refine .inr ⟨fun l => ?_, by rw [stepState_eq, he]; rfl⟩
    by_cases hl : nextAgentStep s = l
    · subst hl; simp [happens, he]
    · have : (nextAgentStep s == l) = false := by simpa using hl
      simp [happens, this]

/-- `COUNT` after one step: cleared by a take, else moved by the delta of a commit (R100, R112). -/
theorem stepState_count (s : State) :
    (stepState s).count =
      if happens .xTake s then 0x0000#16
      else if happens .dCommit s then s.count + sext16 (delta s.prev s.cur) else s.count := by
  rcases turn_cases s with ⟨l, -, h, -, hs, hne⟩ | ⟨hne, hs⟩
  · rw [hs]
    cases l <;> simp_all [performed]
  · simp [hs, hne]

/-- `LATCH` after one step: written by a take alone. -/
theorem stepState_latch (s : State) :
    (stepState s).latch = if happens .xTake s then s.count else s.latch := by
  rcases turn_cases s with ⟨l, -, h, -, hs, hne⟩ | ⟨hne, hs⟩
  · rw [hs]
    cases l <;> simp_all [performed]
  · simp [hs, hne]

/-- The parameters never change. -/
@[simp] theorem stepState_params (s : State) : (stepState s).params = s.params := by
  rcases turn_cases s with ⟨l, -, -, -, hs, -⟩ | ⟨-, hs⟩
  · rw [hs]; cases l <;> simp [performed]
  · simp [hs]

/-- One level change served at once (`EDGE` of R61, legal as R61 has it but for `PEND`): what its three steps leave. -/
theorem after_pseudoEdge {s : State} {v : PinState} {tr : List AgentStep} (ht : s.trace = pseudoEdge v ++ tr)
    (hi : s.inh = false) (hd : s.dphase = .idle) (hp : s.prev = s.pins) (hv : v ≠ s.pins) :
    after 3 s =
      { s with
        pins := v, prev := v, cur := v, count := s.count + sext16 (delta s.pins v), pend := false,
        trace := tr, turn := s.turn + 3 } := by
  obtain ⟨_, _, _, _, _, _, _, _, _, _, _, _, _, _, _⟩ := s
  simp only at ht hi hd hp hv
  subst ht hi hd hp
  simp [after, stepState_eq, nextAgentStep, pseudoEdge, enabled, performed, advance, pinChange, pendAfterChange,
    interruptEntry, recordTransition, interruptReturn, samplePins, deliverable, hv]

end Sys2Proof.Machine
end

