-- ==== Sys2Proof/Tests/Slice0.lean ====
section
/-! SUPPORT. Tests. Expected results are the spec's own: the encodings of 30_encoding R56 and R57, the example of each
transition rule (40_quadrature_decoder R74 to R89), and the vectors of 95_test_vectors named at each test. The last part
shows, for each statement that has hypotheses, states that meet them, clause by clause. -/

namespace Sys2Proof.Machine.Tests

/-! ### Well-formedness: each check refuses an ill-formed term and accepts a well-formed one -/

theorem test_wellFormed_refuses_ignore1xxxxxxx : (Instr.ignore1xxxxxxx 0x7F#8).wellFormed = false := by decide
theorem test_wellFormed_accepts_ignore1xxxxxxx :
    (Instr.ignore1xxxxxxx 0x80#8).wellFormed = true ∧ (Instr.ignore1xxxxxxx 0xFF#8).wellFormed = true := by decide
theorem test_wellFormed_refuses_ignore00xxxxxx : (Instr.ignore00xxxxxx 0x40#8).wellFormed = false := by decide
theorem test_wellFormed_accepts_ignore00xxxxxx :
    (Instr.ignore00xxxxxx 0x00#8).wellFormed = true ∧ (Instr.ignore00xxxxxx 0x3F#8).wellFormed = true := by decide
theorem test_wellFormed_refuses_ignore010xxxxx : (Instr.ignore010xxxxx 0x60#8).wellFormed = false := by decide
theorem test_wellFormed_accepts_ignore010xxxxx :
    (Instr.ignore010xxxxx 0x40#8).wellFormed = true ∧ (Instr.ignore010xxxxx 0x5F#8).wellFormed = true := by decide
theorem test_wellFormed_refuses_ignore0110xxxx : (Instr.ignore0110xxxx 0x70#8).wellFormed = false := by decide
theorem test_wellFormed_accepts_ignore0110xxxx :
    (Instr.ignore0110xxxx 0x60#8).wellFormed = true ∧ (Instr.ignore0110xxxx 0x6F#8).wellFormed = true := by decide
theorem test_wellFormed_refuses_ignore01111xxx : (Instr.ignore01111xxx 0x77#8).wellFormed = false := by decide
theorem test_wellFormed_accepts_ignore01111xxx :
    (Instr.ignore01111xxx 0x78#8).wellFormed = true ∧ (Instr.ignore01111xxx 0x7F#8).wellFormed = true := by decide
theorem test_wellFormed_refuses_ignore011101xx : (Instr.ignore011101xx 0x73#8).wellFormed = false := by decide
theorem test_wellFormed_accepts_ignore011101xx :
    (Instr.ignore011101xx 0x74#8).wellFormed = true ∧ (Instr.ignore011101xx 0x77#8).wellFormed = true := by decide
theorem test_wellFormed_refuses_ignore0111000x : (Instr.ignore0111000x 0x72#8).wellFormed = false := by decide
theorem test_wellFormed_accepts_ignore0111000x :
    (Instr.ignore0111000x 0x70#8).wellFormed = true ∧ (Instr.ignore0111000x 0x71#8).wellFormed = true := by decide

/-! ### Decoding: each constructor's word, written bit by bit from R56 and R57 -/

theorem test_decode_qHold00_00 : decodeTrans 0b0000#4 = .qHold00_00 ∧ encode .qHold00_00 = .trans 0b0000#4 := by decide
theorem test_decode_qDec00_01 : decodeTrans 0b0001#4 = .qDec00_01 ∧ encode .qDec00_01 = .trans 0b0001#4 := by decide
theorem test_decode_qInc00_10 : decodeTrans 0b0010#4 = .qInc00_10 ∧ encode .qInc00_10 = .trans 0b0010#4 := by decide
theorem test_decode_qSkip00_11 : decodeTrans 0b0011#4 = .qSkip00_11 ∧ encode .qSkip00_11 = .trans 0b0011#4 := by decide
theorem test_decode_qInc01_00 : decodeTrans 0b0100#4 = .qInc01_00 ∧ encode .qInc01_00 = .trans 0b0100#4 := by decide
theorem test_decode_qHold01_01 : decodeTrans 0b0101#4 = .qHold01_01 ∧ encode .qHold01_01 = .trans 0b0101#4 := by decide
theorem test_decode_qSkip01_10 : decodeTrans 0b0110#4 = .qSkip01_10 ∧ encode .qSkip01_10 = .trans 0b0110#4 := by decide
theorem test_decode_qDec01_11 : decodeTrans 0b0111#4 = .qDec01_11 ∧ encode .qDec01_11 = .trans 0b0111#4 := by decide
theorem test_decode_qDec10_00 : decodeTrans 0b1000#4 = .qDec10_00 ∧ encode .qDec10_00 = .trans 0b1000#4 := by decide
theorem test_decode_qSkip10_01 : decodeTrans 0b1001#4 = .qSkip10_01 ∧ encode .qSkip10_01 = .trans 0b1001#4 := by decide
theorem test_decode_qHold10_10 : decodeTrans 0b1010#4 = .qHold10_10 ∧ encode .qHold10_10 = .trans 0b1010#4 := by decide
theorem test_decode_qInc10_11 : decodeTrans 0b1011#4 = .qInc10_11 ∧ encode .qInc10_11 = .trans 0b1011#4 := by decide
theorem test_decode_qSkip11_00 : decodeTrans 0b1100#4 = .qSkip11_00 ∧ encode .qSkip11_00 = .trans 0b1100#4 := by decide
theorem test_decode_qInc11_01 : decodeTrans 0b1101#4 = .qInc11_01 ∧ encode .qInc11_01 = .trans 0b1101#4 := by decide
theorem test_decode_qDec11_10 : decodeTrans 0b1110#4 = .qDec11_10 ∧ encode .qDec11_10 = .trans 0b1110#4 := by decide
theorem test_decode_qHold11_11 : decodeTrans 0b1111#4 = .qHold11_11 ∧ encode .qHold11_11 = .trans 0b1111#4 := by decide
theorem test_decode_readReset : decodeCmd 0b01110010#8 = .readReset ∧ encode .readReset = .cmd 0x72#8 := by decide
theorem test_decode_ignore1xxxxxxx : decodeCmd 0b11110010#8 = .ignore1xxxxxxx 0b11110010#8 := by decide
theorem test_decode_ignore00xxxxxx : decodeCmd 0b00110010#8 = .ignore00xxxxxx 0b00110010#8 := by decide
theorem test_decode_ignore010xxxxx : decodeCmd 0b01010010#8 = .ignore010xxxxx 0b01010010#8 := by decide
theorem test_decode_ignore0110xxxx : decodeCmd 0b01100010#8 = .ignore0110xxxx 0b01100010#8 := by decide
theorem test_decode_ignore01111xxx : decodeCmd 0b01111010#8 = .ignore01111xxx 0b01111010#8 := by decide
theorem test_decode_ignore011101xx : decodeCmd 0b01110110#8 = .ignore011101xx 0b01110110#8 := by decide
theorem test_decode_ignore0111000x : decodeCmd 0b01110000#8 = .ignore0111000x 0b01110000#8 := by decide
theorem test_decode_ignore01110011 : decodeCmd 0b01110011#8 = .ignore01110011 := by decide

/-- 95_test_vectors 2.5, source scenario 3: `0x41` is ignored, and a byte stream is read one byte at a time (R59). -/
theorem test_decode_stream : decode .cmd [0x41#8, 0x72#8] = .ok (.ignore010xxxxx 0x41#8, [0x72#8]) := by decide

/-- A byte with a bit above the four of a `TRANS` code, and no byte at all, are refused by name. -/
theorem test_decode_refuses :
    decode .trans [0x10#8] = .error .widerThanTransCode ∧ decode .cmd [] = .error .noByte := by
  constructor <;> rfl

/-- Words as spec/opcode_table.json numbers them, at the host's interface. -/
theorem test_decodeTableWord :
    decodeTableWord 4 0xD = some .qInc11_01 ∧ decodeTableWord 8 0x72 = some .readReset ∧
    decodeTableWord 8 0x40 = some (.ignore010xxxxx 0x40#8) ∧ decodeTableWord 8 0x100 = none := by decide

/-! ### The transitions: the example of each rule, as one step of the machine -/

/-- A handler run about to commit. -/
def committing (p c : PinState) (n : Word) : State :=
  { State.reset with prev := p, cur := c, count := n, inh := true, dphase := .active, trace := [.dCommit] }

/-- `PREV` and `COUNT` after the commit. -/
def committed (p c : PinState) (n : Word) : PinState × Word :=
  ((stepState (committing p c n)).prev, (stepState (committing p c n)).count)

/-- R74, example. -/
theorem test_step_qHold00_00 : committed 0b00#2 0b00#2 0x0007#16 = (0b00#2, 0x0007#16) := by decide
/-- R75, example. -/
theorem test_step_qDec00_01 : committed 0b00#2 0b01#2 0x0000#16 = (0b01#2, 0xFFFF#16) := by decide
/-- R76, example. -/
theorem test_step_qInc00_10 : committed 0b00#2 0b10#2 0x0000#16 = (0b10#2, 0x0001#16) := by decide
/-- R77, example. -/
theorem test_step_qSkip00_11 : committed 0b00#2 0b11#2 0x0005#16 = (0b11#2, 0x0005#16) := by decide
/-- R78, example. -/
theorem test_step_qInc01_00 : committed 0b01#2 0b00#2 0x0003#16 = (0b00#2, 0x0004#16) := by decide
/-- R79, example. -/
theorem test_step_qHold01_01 : committed 0b01#2 0b01#2 0xFFFE#16 = (0b01#2, 0xFFFE#16) := by decide
/-- R80, example. -/
theorem test_step_qSkip01_10 : committed 0b01#2 0b10#2 0x0005#16 = (0b10#2, 0x0005#16) := by decide
/-- R81, example. -/
theorem test_step_qDec01_11 : committed 0b01#2 0b11#2 0xFFFF#16 = (0b11#2, 0xFFFE#16) := by decide
/-- R82, example. -/
theorem test_step_qDec10_00 : committed 0b10#2 0b00#2 0x0001#16 = (0b00#2, 0x0000#16) := by decide
/-- R83, example. -/
theorem test_step_qSkip10_01 : committed 0b10#2 0b01#2 0x0001#16 = (0b01#2, 0x0001#16) := by decide
/-- R84, example. -/
theorem test_step_qHold10_10 : committed 0b10#2 0b10#2 0x0001#16 = (0b10#2, 0x0001#16) := by decide
/-- R85, example. -/
theorem test_step_qInc10_11 : committed 0b10#2 0b11#2 0x0001#16 = (0b11#2, 0x0002#16) := by decide
/-- R86, example. -/
theorem test_step_qSkip11_00 : committed 0b11#2 0b00#2 0xFFFD#16 = (0b00#2, 0xFFFD#16) := by decide
/-- R87, example. -/
theorem test_step_qInc11_01 : committed 0b11#2 0b01#2 0x0002#16 = (0b01#2, 0x0003#16) := by decide
/-- R88, example. -/
theorem test_step_qDec11_10 : committed 0b11#2 0b10#2 0xFFFE#16 = (0b10#2, 0xFFFD#16) := by decide
/-- R89, example. -/
theorem test_step_qHold11_11 : committed 0b11#2 0b11#2 0x0002#16 = (0b11#2, 0x0002#16) := by decide

/-- 95_test_vectors 2.2: the wrap points. -/
theorem test_count_wraps :
    committed 0b00#2 0b10#2 0x7FFF#16 = (0b10#2, 0x8000#16) ∧ committed 0b11#2 0b01#2 0xFFFF#16 = (0b01#2, 0x0000#16) ∧
    committed 0b00#2 0b01#2 0x8000#16 = (0b01#2, 0x7FFF#16) ∧ committed 0b10#2 0b00#2 0x0000#16 = (0b00#2, 0xFFFF#16) := by
  decide

/-- R72: the commit leaves the handler and re-enables delivery. -/
theorem test_commit_returns :
    (stepState (committing 0b00#2 0b10#2 0x0000#16)).inh = false ∧
    (stepState (committing 0b00#2 0b10#2 0x0000#16)).dphase = .idle := by decide

/-! ### The exchange: rows of the tables of programs P1, P2, P3 and P7 of 95_test_vectors -/

/-- The exchange agent in a phase, with a count, a latch, and its queues. -/
def exchanging (x : XPhase) (n l : Word) (rx tx : List Byte) (next : AgentStep) : State :=
  { State.reset with
    count := n, latch := l, xphase := x, inh := x == .masked || x == .taken, rxq := rx, txq := tx, trace := [next] }

/-- P1 step 14; P7 steps 16 to 18. -/
theorem test_fetch_read :
    (stepState (exchanging .rest 4#16 0#16 [0x72#8] [] .xFetch)).xphase = .armed ∧
    (stepState (exchanging .rest 4#16 0#16 [0x72#8] [] .xFetch)).rxq = [] := by decide

/-- P2 step 11 and P7 steps 16, 17: the byte goes, nothing else changes. -/
theorem test_fetch_ignored :
    stepState (exchanging .rest 0xFFFD#16 0#16 [0x41#8] [] .xFetch) =
      { exchanging .rest 0xFFFD#16 0#16 [] [] .xFetch with trace := [], turn := 1 } ∧
    (stepState (exchanging .rest 1#16 0#16 [0x00#8, 0xFF#8, 0x72#8] [] .xFetch)).rxq = [0xFF#8, 0x72#8] := by decide

/-- P2 steps 14, 15. -/
theorem test_mask_and_take :
    (stepState (exchanging .armed 0xFFFD#16 0#16 [] [] .xMask)).inh = true ∧
    (stepState (exchanging .masked 0xFFFD#16 0#16 [] [] .xTake)).latch = 0xFFFD#16 ∧
    (stepState (exchanging .masked 0xFFFD#16 0#16 [] [] .xTake)).count = 0x0000#16 := by decide

/-- P3 steps 15, 16: the frame is `LATCH`, not `COUNT`; 95_test_vectors 2.4, `0x1234` and `0xFF80`. -/
theorem test_send :
    (stepState (exchanging .sendHi 1#16 0x1234#16 [] [] .xSendHi)).txq = [0x12#8] ∧
    (stepState (exchanging .sendLo 1#16 0x1234#16 [] [0x12#8] .xSendLo)).txq = [0x12#8, 0x34#8] ∧
    frameBytes 0xFF80#16 = [0xFF#8, 0x80#8] ∧ sint16 0xFF80#16 = -128 ∧ rebuildCount 0xFF#8 0x80#8 = -128 := by decide

/-- R4: a frame has `FRAME_BYTES` bytes. -/
theorem test_frame_length : (frameBytes 0x8001#16).length = Config.frameBytes := by decide

/-- 95_test_vectors 2.6: `D_ENTER` waits in the critical section; the main loop waits in the handler. -/
theorem test_not_enabled :
    enabled .dEnter { exchanging .masked 0#16 0#16 [] [] .xTake with pend := true } = false ∧
    enabled .xFetch { committing 0#2 2#2 0#16 with rxq := [0x72#8] } = false ∧
    enabled .xFetch (exchanging .armed 0#16 0#16 [0x72#8] [] .xMask) = false := by decide

/-! ### The interrupt: 95_test_vectors 2.6, and the worked case of R174 -/

/-- A level change with the handler active (or idle), under a policy. -/
def changing (policy : MaskedEdgePolicy) (d : DPhase) (v : PinState) : State :=
  { State.reset with
    params := ⟨policy, none, none⟩, dphase := d, inh := d == .active, pins := 0b10#2, cur := 0b10#2, trace := [.ePin v] }

theorem test_change_latched_dropped :
    (stepState (changing .either .idle 0b11#2)).pend = true ∧ (stepState (changing .latch .active 0b11#2)).pend = true ∧
    (stepState (changing .drop .active 0b11#2)).pend = false ∧ (stepState (changing .drop .active 0b11#2)).pins = 0b11#2 ∧
    (stepState (changing .latch .idle 0b10#2)).pend = false := by decide

/-- Both draws of `either` are effects of a level change: rows 3 of programs P5a and P5b. -/
theorem test_either_admits_both :
    (pinChange 0b11#2 false (changing .either .active 0b11#2)).pend = false ∧
    (pinChange 0b11#2 true (changing .either .active 0b11#2)).pend = true := by decide

/-- Entry: P3 step 13. -/
def entering (x : XPhase) (pend inh : Bool) : State :=
  { State.reset with
    pins := 0b01#2, prev := 0b11#2, cur := 0b11#2, xphase := x, pend := pend, inh := inh, trace := [.dEnter] }

theorem test_entry :
    stepState (entering .sendHi true false) =
      { entering .sendHi true false with
        pend := false, inh := true, cur := 0b01#2, dphase := .active, trace := [], turn := 1 } := by decide

/-- R128, R129, with P1 step 20. -/
theorem test_transport :
    (stepState { State.reset with trace := [.eRx 0x72#8] }).rxq = [0x72#8] ∧
    (stepState { State.reset with txq := [0x00#8, 0x04#8], trace := [.eTx] }).txq = [0x04#8] ∧
    (stepState { State.reset with txq := [0x00#8, 0x04#8], trace := [.eTx] }).delivered = [0x00#8] := by decide

/-- 95_test_vectors 2.7: reset under each level of the lines. -/
theorem test_reset :
    (State.resetAt Config.defaultParams 0b11#2 0#2 0#16 []).prev = 0b11#2 ∧ State.reset.quiescent := by decide

/-- A word placed for the next step is run by it. -/
theorem test_placed_word :
    (stepState (State.reset.withFetchWord 8 0x72)).xphase = .armed ∧
    (stepState (State.reset.withFetchWord 4 0xD)).count = 0x0001#16 ∧
    (stepState (State.reset.withFetchWord 8 0x41)).rxq = [] := by decide

/-- Pseudo-steps (R61). -/
theorem test_pseudo :
    pseudoEdge 0b10#2 = [.ePin 0b10#2, .dEnter, .dCommit] ∧ pseudoReq 0x41#8 = [.eRx 0x41#8, .xFetch] ∧
    (pseudoReq 0x72#8).length = 7 ∧ pseudoDrain 2 = [.eTx, .eTx] := by decide

/-! ### Witnesses: states that meet the hypotheses of each statement -/

theorem witness_DCommitAppliesTheDeltaTable :
    nextAgentStep (committing 0b00#2 0b10#2 0x7FFF#16) = .dCommit ∧ (committing 0b00#2 0b10#2 0x7FFF#16).dphase = .active ∧
    nextAgentStep { State.reset with trace := [.dCommit] } = .dCommit ∧ State.reset.dphase = .idle := by decide

/-- The state about to commit a pair meets the premises of that pair's row. -/
def meetsRow (p c : PinState) (n : Word) : Prop :=
  (committing p c n).dphase = .active ∧ (committing p c n).prev = p ∧ (committing p c n).cur = c

theorem witness_IncTransitionsCountUp :
    meetsRow 0b00#2 0b10#2 0xFFFF#16 ∧ meetsRow 0b01#2 0b00#2 0xFFFF#16 ∧
    meetsRow 0b10#2 0b11#2 0xFFFF#16 ∧ meetsRow 0b11#2 0b01#2 0xFFFF#16 :=
  ⟨⟨rfl, rfl, rfl⟩, ⟨rfl, rfl, rfl⟩, ⟨rfl, rfl, rfl⟩, rfl, rfl, rfl⟩

theorem witness_DecTransitionsCountDown :
    meetsRow 0b00#2 0b01#2 0x0000#16 ∧ meetsRow 0b01#2 0b11#2 0x0000#16 ∧
    meetsRow 0b10#2 0b00#2 0x0000#16 ∧ meetsRow 0b11#2 0b10#2 0x0000#16 :=
  ⟨⟨rfl, rfl, rfl⟩, ⟨rfl, rfl, rfl⟩, ⟨rfl, rfl, rfl⟩, rfl, rfl, rfl⟩

theorem witness_HoldTransitionsKeepCount :
    meetsRow 0b00#2 0b00#2 0x8000#16 ∧ meetsRow 0b01#2 0b01#2 0x8000#16 ∧
    meetsRow 0b10#2 0b10#2 0x8000#16 ∧ meetsRow 0b11#2 0b11#2 0x8000#16 :=
  ⟨⟨rfl, rfl, rfl⟩, ⟨rfl, rfl, rfl⟩, ⟨rfl, rfl, rfl⟩, rfl, rfl, rfl⟩

theorem witness_SkipTransitionsResynchronise :
    meetsRow 0b00#2 0b11#2 0x7FFF#16 ∧ meetsRow 0b01#2 0b10#2 0x7FFF#16 ∧
    meetsRow 0b10#2 0b01#2 0x7FFF#16 ∧ meetsRow 0b11#2 0b00#2 0x7FFF#16 :=
  ⟨⟨rfl, rfl, rfl⟩, ⟨rfl, rfl, rfl⟩, ⟨rfl, rfl, rfl⟩, rfl, rfl, rfl⟩

/-- One of each class, with a count at a wrap point. -/
theorem witness_CounterOperationsWrap :
    (0x2#4 ∈ [0x2#4, 0x4#4, 0xB#4, 0xD#4] ∧ (committing 0b00#2 0b10#2 0xFFFF#16).dphase = .active ∧
      transCode (committing 0b00#2 0b10#2 0xFFFF#16).prev (committing 0b00#2 0b10#2 0xFFFF#16).cur = 0x2#4) ∧
    (0xE#4 ∈ [0x1#4, 0x7#4, 0x8#4, 0xE#4] ∧ (committing 0b11#2 0b10#2 0x0000#16).dphase = .active ∧
      transCode (committing 0b11#2 0b10#2 0x0000#16).prev (committing 0b11#2 0b10#2 0x0000#16).cur = 0xE#4) ∧
    (0xF#4 ∈ [0x0#4, 0x3#4, 0x5#4, 0x6#4, 0x9#4, 0xA#4, 0xC#4, 0xF#4] ∧
      (committing 0b11#2 0b11#2 0x8000#16).dphase = .active ∧
      transCode (committing 0b11#2 0b11#2 0x8000#16).prev (committing 0b11#2 0b11#2 0x8000#16).cur = 0xF#4) := by decide

theorem witness_CriticalSectionSteps_mask :
    nextAgentStep (exchanging .armed 4#16 0#16 [] [] .xMask) = .xMask ∧
    enabled .xMask (exchanging .armed 4#16 0#16 [] [] .xMask) = true ∧
    (exchanging .armed 4#16 0#16 [] [] .xMask).inhibitScoped ∧
    nextAgentStep (exchanging .rest 4#16 0#16 [] [] .xMask) = .xMask ∧
    enabled .xMask (exchanging .rest 4#16 0#16 [] [] .xMask) = false := by decide

theorem witness_CriticalSectionSteps_take :
    nextAgentStep (exchanging .masked 0x8000#16 0#16 [] [] .xTake) = .xTake ∧
    enabled .xTake (exchanging .masked 0x8000#16 0#16 [] [] .xTake) = true ∧
    (exchanging .masked 0x8000#16 0#16 [] [] .xTake).inhibitScoped ∧
    (exchanging .masked 0x8000#16 0#16 [] [] .xTake).inCritical ∧
    nextAgentStep (exchanging .taken 4#16 0#16 [] [] .xTake) = .xTake ∧
    enabled .xTake (exchanging .taken 4#16 0#16 [] [] .xTake) = false ∧
    happens (.ePin 0b10#2) (exchanging .masked 4#16 0#16 [] [] (.ePin 0b10#2)) = true := by decide

theorem witness_CriticalSectionSteps_unmask :
    nextAgentStep (exchanging .taken 0#16 4#16 [] [] .xUnmask) = .xUnmask ∧
    enabled .xUnmask (exchanging .taken 0#16 4#16 [] [] .xUnmask) = true ∧
    happens .xUnmask { exchanging .taken 0#16 4#16 [] [] .xUnmask with pend := true } = true ∧
    nextAgentStep (exchanging .masked 0#16 4#16 [] [] .xUnmask) = .xUnmask ∧
    enabled .xUnmask (exchanging .masked 0#16 4#16 [] [] .xUnmask) = false := by decide

/-- A take, the rest of its exchange, and the next exchange up to its take. -/
def twoTakes : State :=
  { exchanging .masked 0x1234#16 0#16 [0x72#8] [] .xTake with
    trace := [.xTake, .xUnmask, .xSendHi, .xSendLo, .xFetch, .xMask, .xTake] }

theorem witness_RepeatedTakeReturnsZero :
    happens .xTake twoTakes = true ∧ committedDeltas 5 (stepState twoTakes) = [] ∧
    happens .xTake (after 5 (stepState twoTakes)) = true := by decide

theorem witness_TakeReportsTheCommitsSinceTheLast_second :
    happens .xTake twoTakes = true ∧ takenValues 5 (stepState twoTakes) = [] ∧
    happens .xTake (after 5 (stepState twoTakes)) = true := by decide

/-- The first take of a run from reset, after one counted edge. -/
def firstTake : State :=
  State.resetAt Config.defaultParams 0b00#2 0b11#2 0xFFFF#16
    (pseudoEdge 0b10#2 ++ [.eRx 0x72#8, .xFetch, .xMask, .xTake])

theorem witness_TakeReportsTheCommitsSinceTheLast_first :
    takenValues 6 firstTake = [] ∧ happens .xTake (after 6 firstTake) = true ∧ committedDeltas 6 firstTake = [1] := by
  decide

theorem witness_CountingLaw : takenValues 6 firstTake = [] ∧ (after 6 firstTake).count = 0x0001#16 := by decide

theorem witness_FetchConsumesOneByte :
    nextAgentStep (exchanging .rest 0#16 0#16 [0x72#8] [] .xFetch) = .xFetch ∧
    nextAgentStep (exchanging .rest 0#16 0#16 [0x73#8] [] .xFetch) = .xFetch ∧
    nextAgentStep (exchanging .rest 0#16 0#16 [] [] .xFetch) = .xFetch ∧
    nextAgentStep (exchanging .armed 0#16 0#16 [0x72#8] [] .xFetch) = .xFetch ∧
    nextAgentStep (exchanging .rest 0#16 0#16 [0x72#8] [] (.eRx 0x41#8)) ≠ .xFetch := by decide

theorem witness_ReadResetSendsAndClears :
    (exchanging .rest 0xFFFF#16 0#16 [0x72#8, 0x72#8] [0x01#8] .xFetch).xphase = .rest ∧
    (exchanging .rest 0xFFFF#16 0#16 [0x72#8, 0x72#8] [0x01#8] .xFetch).rxq = 0x72#8 :: [0x72#8] ∧
    (exchanging .rest 0xFFFF#16 0#16 [0x72#8, 0x72#8] [0x01#8] .xFetch).params.txDepth = none := by decide

/-- A send with a `TX_DEPTH` of one byte. -/
def sendingInto (x : XPhase) (tx : List Byte) (next : AgentStep) : State :=
  { exchanging x 0#16 0x1234#16 [] tx next with params := ⟨.either, none, some 1⟩ }

theorem witness_ReadResetRunsInEveryPhase :
    (exchanging .rest 0#16 0#16 [] [] .xFetch).xphase = .rest ∧ (exchanging .armed 0#16 0#16 [] [] .xMask).xphase = .armed ∧
    (exchanging .masked 0#16 0#16 [] [] .xTake).xphase = .masked ∧
    (exchanging .taken 0#16 0#16 [] [] .xUnmask).xphase = .taken ∧
    (sendingInto .sendHi [] .xSendHi).xphase = .sendHi ∧
    hasRoom (sendingInto .sendHi [] .xSendHi).params.txDepth (sendingInto .sendHi [] .xSendHi).txq = true ∧
    (sendingInto .sendLo [] .xSendLo).xphase = .sendLo ∧
    hasRoom (sendingInto .sendLo [] .xSendLo).params.txDepth (sendingInto .sendLo [] .xSendLo).txq = true ∧
    (sendingInto .sendHi [0x12#8] .xSendHi).xphase = .sendHi ∧
    hasRoom (sendingInto .sendHi [0x12#8] .xSendHi).params.txDepth (sendingInto .sendHi [0x12#8] .xSendHi).txq = false ∧
    (sendingInto .sendLo [0x12#8] .xSendLo).xphase = .sendLo ∧
    hasRoom (sendingInto .sendLo [0x12#8] .xSendLo).params.txDepth (sendingInto .sendLo [0x12#8] .xSendLo).txq = false := by
  decide

/-- The conditions of a fetch, and for each `IGNORE` row a byte at an end of its pattern. -/
theorem witness_IgnoreConsumesAndDoesNothing :
    (exchanging .rest 7#16 0#16 [0x71#8, 0x72#8] [] .xFetch).xphase = .rest ∧
    (exchanging .rest 7#16 0#16 [0x71#8, 0x72#8] [] .xFetch).dphase = .idle ∧
    (exchanging .rest 7#16 0#16 [0x71#8, 0x72#8] [] .xFetch).rxq = 0x71#8 :: [0x72#8] ∧ (0x71#8 : Byte) ≠ 0x72#8 ∧
    (∀ i ∈ [Instr.ignore1xxxxxxx 0xFF#8, .ignore00xxxxxx 0x00#8, .ignore010xxxxx 0x5F#8, .ignore0110xxxx 0x60#8,
      .ignore01111xxx 0x78#8, .ignore011101xx 0x74#8, .ignore0111000x 0x71#8, .ignore01110011], i.wellFormed = true) ∧
    encode (.ignore1xxxxxxx 0xFF#8) = .cmd 0xFF#8 ∧ encode .ignore01110011 = .cmd 0x73#8 := by decide

theorem witness_IgnoreRunsInEveryState : (0x71#8 : Byte) ≠ 0x72#8 ∧ (0x73#8 : Byte) ≠ 0x72#8 := by decide

theorem witness_FrameWritesPushHighThenLow :
    hasRoom (sendingInto .sendHi [] .xSendHi).params.txDepth (sendingInto .sendHi [] .xSendHi).txq = true ∧
    nextAgentStep (sendingInto .sendHi [] .xSendHi) = .xSendHi ∧ enabled .xSendHi (sendingInto .sendHi [] .xSendHi) = true ∧
    nextAgentStep (sendingInto .rest [] .xSendHi) = .xSendHi ∧ enabled .xSendHi (sendingInto .rest [] .xSendHi) = false ∧
    nextAgentStep (sendingInto .sendLo [] .xSendLo) = .xSendLo ∧ enabled .xSendLo (sendingInto .sendLo [] .xSendLo) = true ∧
    nextAgentStep (sendingInto .rest [] .xSendLo) = .xSendLo ∧ enabled .xSendLo (sendingInto .rest [] .xSendLo) = false ∧
    (nextAgentStep (sendingInto .sendLo [0x12#8] .dEnter)).agent = .decoder := by
  decide

theorem witness_TransportStepsAreFifo :
    nextAgentStep { State.reset with trace := [.eRx 0xFF#8] } = .eRx 0xFF#8 ∧
    hasRoom State.reset.params.rxDepth State.reset.rxq = true ∧
    nextAgentStep { State.reset with params := ⟨.either, some 0, none⟩, trace := [.eRx 0xFF#8] } = .eRx 0xFF#8 ∧
    hasRoom (some 0) [] = false ∧
    nextAgentStep { State.reset with txq := [0x04#8], trace := [.eTx] } = .eTx ∧
    nextAgentStep { State.reset with trace := [.eTx] } = .eTx := by decide

theorem witness_InterruptEntrySamplesAndMasks :
    nextAgentStep (entering .sendHi true false) = .dEnter ∧ enabled .dEnter (entering .sendHi true false) = true ∧
    (entering .sendHi true false).inhibitScoped ∧
    nextAgentStep (entering .masked true true) = .dEnter ∧ enabled .dEnter (entering .masked true true) = false := by decide

theorem witness_LevelChangeLatchesTheTrigger :
    nextAgentStep (changing .latch .active 0b11#2) = .ePin 0b11#2 ∧
    (changing .latch .active 0b11#2).params.maskedEdgePolicy = .latch ∧
    nextAgentStep (changing .drop .active 0b11#2) = .ePin 0b11#2 ∧
    (changing .drop .active 0b11#2).params.maskedEdgePolicy = .drop ∧
    nextAgentStep (changing .either .active 0b11#2) = .ePin 0b11#2 ∧
    (changing .either .active 0b11#2).dphase = .active ∧ (changing .either .active 0b11#2).pins = 0b10#2 ∧
    (changing .either .active 0b11#2).params.maskedEdgePolicy = .either ∧
    nextAgentStep (changing .either .idle 0b10#2) = .ePin 0b10#2 ∧ (changing .either .idle 0b10#2).pins = 0b10#2 := by decide

/-- Any state has a step; what it gives is `stepState`. -/
theorem witness_step (l : AgentStep) : step (entering .sendHi true false) = .next (stepState (entering .sendHi true false)) ∧
    step (committing 0b00#2 0b10#2 0#16) = .next (stepState (committing 0b00#2 0b10#2 0#16)) ∧
    step (exchanging .masked 0#16 0#16 [] [] .xTake) = .next (stepState (exchanging .masked 0#16 0#16 [] [] .xTake)) ∧
    nextAgentStep (exchanging .rest 0#16 0#16 [] [] l) = l := ⟨rfl, rfl, rfl, rfl⟩

theorem witness_OnlyItsOwnersWriteAnElement :
    step firstTake = .next (stepState firstTake) ∧ step twoTakes = .next (stepState twoTakes) := ⟨rfl, rfl⟩

theorem witness_DeliveryIsMaskedOnlyByItsOwners :
    (entering .sendHi true false).inh = false ∧ (stepState (entering .sendHi true false)).inh = true ∧
    (entering .sendHi true false).pend = true ∧ (stepState (entering .sendHi true false)).pend = false ∧
    (committing 0b00#2 0b10#2 0#16).inh = true ∧ (stepState (committing 0b00#2 0b10#2 0#16)).inh = false ∧
    { committing 0b00#2 0b10#2 0#16 with pend := true }.inh = true ∧
    (stepState { committing 0b00#2 0b10#2 0#16 with pend := true }).pend = true := by decide

/-- A handler run with a level change inside it. -/
def runWithChange : State := { entering .sendHi true false with trace := [.dEnter, .ePin 0b10#2, .dCommit] }

theorem witness_PrevIsTheSampleOfTheRun :
    runWithChange.inhibitScoped ∧ happens .dEnter runWithChange = true ∧
    committedDeltas 1 (stepState runWithChange) = [] ∧ happens .dCommit (after 1 (stepState runWithChange)) = true := by
  decide

theorem witness_HandlerEndsOnlyByItsCommit :
    (changing .drop .active 0b11#2).dphase = .active ∧ committedDeltas 1 (changing .drop .active 0b11#2) = [] := by decide

theorem witness_StepKeepsInhibitScoped :
    (entering .sendHi true false).inhibitScoped ∧ (committing 0b00#2 0b10#2 0#16).inhibitScoped ∧
    (exchanging .masked 0#16 0#16 [] [] .xTake).inhibitScoped := by decide

theorem witness_StepKeepsQueuesWithinDepth :
    (sendingInto .sendHi [0x12#8] .xSendHi).queuesFit ∧
    step (sendingInto .sendHi [0x12#8] .xSendHi) = .next (stepState (sendingInto .sendHi [0x12#8] .xSendHi)) := by
  refine ⟨by decide, rfl⟩

theorem witness_LatchPolicyKeepsNewestSample :
    (changing .latch .active 0b11#2).params.maskedEdgePolicy = .latch ∧ (changing .latch .active 0b11#2).newestSampled ∧
    step (changing .latch .active 0b11#2) = .next (stepState (changing .latch .active 0b11#2)) := by
  refine ⟨by decide, by decide, rfl⟩

theorem witness_HandlerAndCriticalSectionExclude :
    (committing 0b00#2 0b10#2 0#16).inhibitScoped ∧ (committing 0b00#2 0b10#2 0#16).dphase = .active ∧
    (exchanging .taken 0#16 0#16 [] [] .xUnmask).inhibitScoped ∧ (exchanging .taken 0#16 0#16 [] [] .xUnmask).inCritical ∧
    AgentStep.xTake.agent = .exchange ∧ AgentStep.dCommit.agent = .decoder := by decide

theorem witness_NothingDisablesTheTake :
    (exchanging .masked 4#16 0#16 [] [] (.ePin 0b10#2)).xphase = .masked ∧
    happens .xTake (exchanging .masked 4#16 0#16 [] [] (.ePin 0b10#2)) = false ∧
    (exchanging .masked 4#16 0#16 [] [] (.ePin 0b10#2)).inhibitScoped ∧
    step (exchanging .masked 4#16 0#16 [] [] (.ePin 0b10#2)) =
      .next (stepState (exchanging .masked 4#16 0#16 [] [] (.ePin 0b10#2))) := by
  refine ⟨by decide, by decide, by decide, rfl⟩

theorem witness_QuiescentMeansNothingToDo : State.reset.inhibitScoped ∧ State.reset.quiescent := by decide

theorem witness_ResetLeavesTheQuietState : (AgentStep.dEnter).agent ≠ .environment := by decide

theorem witness_DecodeEncodeRoundTrip :
    (Instr.ignore1xxxxxxx 0x80#8).wellFormed = true ∧ (Instr.ignore0111000x 0x71#8).wellFormed = true ∧
    Instr.qHold11_11.wellFormed = true := by decide

theorem witness_StepRunsTheDecodedInstruction :
    nextAgentStep (committing 0b11#2 0b11#2 0#16) = .dCommit ∧ (committing 0b11#2 0b11#2 0#16).dphase = .active ∧
    nextAgentStep (exchanging .rest 0#16 0#16 [0x71#8] [] .xFetch) = .xFetch ∧
    (exchanging .rest 0#16 0#16 [0x71#8] [] .xFetch).dphase = .idle ∧
    enabled .xMask (exchanging .armed 0#16 0#16 [] [] .xMask) = true ∧
    enabled .xTake (exchanging .masked 0#16 0#16 [] [] .xTake) = true ∧
    enabled .xUnmask (exchanging .taken 0#16 0#16 [] [] .xUnmask) = true ∧
    enabled .xSendHi (exchanging .sendHi 0#16 0#16 [] [] .xSendHi) = true ∧
    enabled .xSendLo (exchanging .sendLo 0#16 0#16 [] [] .xSendLo) = true := by decide

theorem witness_PlacedWordRunsNext : 16 ≤ (0x10#8 : Byte).toNat := by decide

theorem witness_FullCycleCountsFour :
    (delta 0b00#2 0b10#2 = 1 ∧ delta 0b10#2 0b11#2 = 1 ∧ delta 0b11#2 0b01#2 = 1 ∧ delta 0b01#2 0b00#2 = 1) ∧
    (delta 0b00#2 0b01#2 = -1 ∧ delta 0b01#2 0b11#2 = -1 ∧ delta 0b11#2 0b10#2 = -1 ∧ delta 0b10#2 0b00#2 = -1) := by decide

theorem witness_OutboundBytesAreTheTakenFrames :
    Config.defaultParams.txDepth = none ∧ twoTakes.params.txDepth = none ∧ takenValues 1 twoTakes = [0x1234#16] := by decide

/-- A take, and under a `TX_DEPTH` of one byte a frame write that finds room. -/
theorem witness_StepAddsOneFramePerTake :
    step twoTakes = .next (stepState twoTakes) ∧ happens .xTake twoTakes = true ∧
    happens .xSendHi twoTakes = false ∧ happens .xSendLo twoTakes = false ∧
    happens .xSendHi (sendingInto .sendHi [] .xSendHi) = true ∧
    hasRoom (sendingInto .sendHi [] .xSendHi).params.txDepth (sendingInto .sendHi [] .xSendHi).txq = true := by
  refine ⟨rfl, ?_⟩; decide

theorem witness_StepMovesTheDataRegisters :
    step twoTakes = .next (stepState twoTakes) ∧ happens .xTake twoTakes = true ∧
    happens .dCommit (committing 0b00#2 0b10#2 0#16) = true ∧ happens .dEnter (entering .sendHi true false) = true := by
  refine ⟨rfl, ?_⟩; decide

theorem witness_CommandsAreServedInOrder : (exchanging .armed 0#16 0#16 [0x72#8] [] .xFetch).xphase ≠ .rest := by decide

theorem witness_UnspecifiedLatchesAreNeverRead :
    (after 2 firstTake).dphase = .active ∧ (after 7 firstTake).xphase = .taken := by decide

/-- Pairs that differ in the latch not in use, in each of its two cases. -/
theorem witness_StepKeepsAgreementButUnreadLatches :
    (committing 0b00#2 0b10#2 4#16).agreesButUnreadLatches { committing 0b00#2 0b10#2 4#16 with latch := 0xFFFF#16 } ∧
    (exchanging .taken 0#16 4#16 [] [] .xUnmask).agreesButUnreadLatches
      { exchanging .taken 0#16 4#16 [] [] .xUnmask with cur := 0b11#2 } ∧
    step (committing 0b00#2 0b10#2 4#16) = .next (stepState (committing 0b00#2 0b10#2 4#16)) := by
  refine ⟨by decide, by decide, rfl⟩

theorem witness_ServedFullCycleCountsFour :
    State.reset.inh = false ∧ State.reset.dphase = .idle ∧ State.reset.prev = State.reset.pins ∧
    (delta State.reset.pins 0b10#2 = 1 ∧ delta 0b10#2 0b11#2 = 1 ∧ delta 0b11#2 0b01#2 = 1 ∧
      delta 0b01#2 0b00#2 = 1) ∧
    (delta State.reset.pins 0b01#2 = -1 ∧ delta 0b01#2 0b11#2 = -1 ∧ delta 0b11#2 0b10#2 = -1 ∧
      delta 0b10#2 0b00#2 = -1) := by decide

theorem witness_ServedBouncesCancel :
    State.reset.inh = false ∧ State.reset.dphase = .idle ∧ State.reset.prev = State.reset.pins ∧
    (0b10#2 : PinState) ≠ State.reset.pins := by decide

/-- Forward and backward from the level `00`, as R174's worked case begins. -/
theorem witness_ChangesMergedInPendAreMissed :
    State.reset.inh = false ∧ State.reset.dphase = .idle ∧ State.reset.prev = State.reset.pins ∧
    delta State.reset.pins 0b10#2 = 1 ∧ delta 0b10#2 0b11#2 = 1 ∧
    delta State.reset.pins 0b01#2 = -1 ∧ delta 0b01#2 0b11#2 = -1 := by decide

end Sys2Proof.Machine.Tests
end

/-! SUPPORT. The statements of 00_scope: the queues stay within their depths (R4), the handler and the critical section
exclude each other (R8), and nothing ends in a fault or a refusal (R9). -/

namespace Sys2Proof.Machine

/-! ### Queues within their depths (R4) -/

/-- A push keeps `RXQ` as it is and leaves `TXQ` within its depth, whether or not there was room. -/
theorem txPush_queuesFit (b : Byte) {s : State} (hs : s.queuesFit) : (txPush b s).queuesFit := by
  refine ⟨?rx, ?tx⟩
  case rx => simpa using hs.1
  case tx => simpa using txPush_fits b s

/-- An enabled step keeps both queues within their depths: only `E_RX` and the two sends lengthen one, `E_RX` is
enabled only where there is room, and a push never goes beyond the depth. -/
theorem performed_queuesFit {l : AgentStep} {s : State} (he : enabled l s = true) (hs : s.queuesFit) :
    (performed l s).queuesFit := by
  obtain ⟨hrx, htx⟩ := hs
  cases l with
  | eRx b => exact ⟨fitsDepth_append_of_hasRoom b he, htx⟩
  | eTx => exact ⟨by simpa [performed] using hrx, by simpa [performed] using fitsDepth_tail htx⟩
  | xFetch => exact ⟨fitsDepth_tail hrx, htx⟩
  | xSendHi => exact txPush_queuesFit (frameHi s.latch) ⟨hrx, htx⟩
  | xSendLo => exact txPush_queuesFit (frameLo s.latch) ⟨hrx, htx⟩
  | ePin | dEnter | dCommit | xMask | xTake | xUnmask => exact ⟨hrx, htx⟩

/-- Settles O26, by the inversion of a step. -/
theorem stepKeepsQueuesWithinDepth : Obligations.StepKeepsQueuesWithinDepth := by
  intro s t hs h
  have hadv : (advance s).queuesFit := hs
  obtain ⟨he, rfl⟩ | ⟨-, rfl⟩ := step_cases h
  · exact performed_queuesFit (by simpa using he) hadv
  · exact hadv

/-! ### Handler and critical section (R8) -/

/-- A step of the exchange agent waits while the handler runs (R42), but for the two steps of the critical section. -/
theorem idle_or_inCritical_of_enabled {l : AgentStep} {s : State} (hl : l.agent = .exchange)
    (he : enabled l s = true) : s.dphase = .idle ∨ s.inCritical := by
  cases l with
  | xFetch | xMask | xSendHi | xSendLo => simp only [enabled, Bool.and_eq_true, beq_iff_eq] at he; tauto
  | xTake => exact .inr (.inl (by simpa [enabled] using he))
  | xUnmask => exact .inr (.inr (by simpa [enabled] using he))
  | ePin | eRx | eTx | dEnter | dCommit => simp [AgentStep.agent] at hl

/-- A step of the decoder enters the handler with delivery not inhibited (R71), or ends a running one (R72). -/
theorem inh_false_or_active_of_enabled {l : AgentStep} {s : State} (hl : l.agent = .decoder)
    (he : enabled l s = true) : s.inh = false ∨ s.dphase = .active := by
  cases l with
  | dEnter =>
    have hdeliver : s.pend = true ∧ s.inh = false := by simpa [enabled, deliverable] using he
    exact .inl hdeliver.2
  | dCommit => exact .inr (by simpa [enabled] using he)
  | ePin | eRx | eTx | xFetch | xMask | xTake | xUnmask | xSendHi | xSendLo => simp [AgentStep.agent] at hl

/-- Settles O28: what an enabled step needs is what R24's invariant rules out. -/
theorem handlerAndCriticalSectionExclude : Obligations.HandlerAndCriticalSectionExclude := by
  intro s hinv
  obtain ⟨hinh, hexcl⟩ := hinv
  refine ⟨fun hact l hl => Bool.eq_false_iff.mpr fun he => ?handler,
    fun hcrit l hl => Bool.eq_false_iff.mpr fun he => ?critical⟩
  case handler =>
    obtain hidle | hcrit := idle_or_inCritical_of_enabled hl he
    · rw [hact] at hidle; cases hidle
    · exact hexcl ⟨hact, hcrit⟩
  case critical =>
    have hinhibited : s.inh = true := hinh.mpr (.inr hcrit)
    obtain hfree | hact := inh_false_or_active_of_enabled hl he
    · rw [hinhibited] at hfree; cases hfree
    · exact hexcl ⟨hact, hcrit⟩

/-! ### Every instruction and every step has a next state (R9) -/

/-- In each of the six phases `READ_RESET` has its next step. -/
theorem execReadReset_next (s : State) : ∃ t, execReadReset s = .next t := by
  cases h : s.xphase with
  | rest => exact ⟨_, execReadReset_rest h⟩
  | armed => exact ⟨_, execReadReset_armed h⟩
  | masked => exact ⟨_, execReadReset_masked h⟩
  | taken => exact ⟨_, execReadReset_taken h⟩
  | sendHi => exact ⟨_, execReadReset_sendHi h⟩
  | sendLo => exact ⟨_, execReadReset_sendLo h⟩

/-- `READ_RESET` goes by its phase; every other row's meaning is one next state. -/
theorem exec_next (i : Instr) (s : State) : ∃ t, exec i s = .next t := by
  cases i with
  | readReset => exact execReadReset_next s
  | _ => exact ⟨_, rfl⟩

/-- Settles O37. -/
theorem noStepFails : Obligations.NoStepFails :=
  ⟨exec_next, fun s => ⟨_, step_eq s⟩⟩

end Sys2Proof.Machine

/-! SUPPORT. The statements of 10_state: what `RESET(p)` leaves (R26), which steps write each element and what they
write (R25), R24's invariant of `INH`, and that an unspecified latch is never read before it is written (R25, R26). -/

namespace Sys2Proof.Machine

/-! ### Enabling conditions of the internal agents' steps, as propositions -/

theorem enabled_dEnter_iff (s : State) : enabled .dEnter s = true ↔ s.pend = true ∧ s.inh = false := by
  simp [enabled, deliverable]

theorem enabled_dCommit_iff (s : State) : enabled .dCommit s = true ↔ s.dphase = .active := by simp [enabled]

theorem enabled_xFetch_iff (s : State) :
    enabled .xFetch s = true ↔ s.xphase = .rest ∧ s.dphase = .idle ∧ s.rxq ≠ [] := by
  simp [enabled, rxAvail, and_assoc]

theorem enabled_xMask_iff (s : State) : enabled .xMask s = true ↔ s.xphase = .armed ∧ s.dphase = .idle := by
  simp [enabled]

theorem enabled_xTake_iff (s : State) : enabled .xTake s = true ↔ s.xphase = .masked := by simp [enabled]

theorem enabled_xUnmask_iff (s : State) : enabled .xUnmask s = true ↔ s.xphase = .taken := by simp [enabled]

theorem enabled_xSendHi_iff (s : State) : enabled .xSendHi s = true ↔ s.xphase = .sendHi ∧ s.dphase = .idle := by
  simp [enabled]

theorem enabled_xSendLo_iff (s : State) : enabled .xSendLo s = true ↔ s.xphase = .sendLo ∧ s.dphase = .idle := by
  simp [enabled]

/-! ### The scope of the inhibit bit (R24) -/

/-- R24's invariant names three situations: delivery allowed with nothing running, the handler, the critical section. -/
theorem inhibitScoped_iff (s : State) :
    s.inhibitScoped ↔
      (s.inh = false ∧ s.dphase = .idle ∧ ¬ s.inCritical) ∨
      (s.inh = true ∧ s.dphase = .active ∧ ¬ s.inCritical) ∨
      (s.inh = true ∧ s.dphase = .idle ∧ s.inCritical) := by
  unfold State.inhibitScoped
  cases s.inh <;> cases s.dphase <;> simp

theorem inhibitScoped_allowed {s : State} (hinh : s.inh = false) (hidle : s.dphase = .idle) (hout : ¬ s.inCritical) :
    s.inhibitScoped :=
  (inhibitScoped_iff s).mpr (.inl ⟨hinh, hidle, hout⟩)

theorem inhibitScoped_handler {s : State} (hinh : s.inh = true) (hact : s.dphase = .active) (hout : ¬ s.inCritical) :
    s.inhibitScoped :=
  (inhibitScoped_iff s).mpr (.inr (.inl ⟨hinh, hact, hout⟩))

theorem inhibitScoped_critical {s : State} (hinh : s.inh = true) (hidle : s.dphase = .idle) (hcrit : s.inCritical) :
    s.inhibitScoped :=
  (inhibitScoped_iff s).mpr (.inr (.inr ⟨hinh, hidle, hcrit⟩))

/-- Where delivery is allowed, nothing that inhibits it is running. -/
theorem idle_outside_of_inh_false {s : State} (hs : s.inhibitScoped) (hinh : s.inh = false) :
    s.dphase = .idle ∧ ¬ s.inCritical := by
  rw [inhibitScoped_iff] at hs
  simpa [hinh] using hs

theorem idle_of_inCritical {s : State} (hs : s.inhibitScoped) (hcrit : s.inCritical) :
    s.inh = true ∧ s.dphase = .idle := by
  rw [inhibitScoped_iff] at hs
  simpa [hcrit] using hs

/-- The invariant reads `INH`, `DPHASE` and whether the critical section is on, and nothing else. -/
theorem inhibitScoped_of_eq {s t : State} (hs : s.inhibitScoped) (hinh : t.inh = s.inh) (hd : t.dphase = s.dphase)
    (hcrit : t.inCritical ↔ s.inCritical) : t.inhibitScoped := by
  unfold State.inhibitScoped
  rwa [hinh, hd, hcrit]

/-- An enabled step keeps the invariant: its enabling condition says which of the three situations it starts in, and what
it writes says in which it ends. -/
theorem performed_inhibitScoped {l : AgentStep} {s : State} (he : enabled l s = true) (hs : s.inhibitScoped) :
    (performed l s).inhibitScoped := by
  cases l with
  | ePin | eRx => exact hs
  | eTx =>
    exact inhibitScoped_of_eq hs (deliverByte_inh s) (deliverByte_dphase s) (by simp [performed, State.inCritical])
  | dEnter =>
    obtain ⟨-, hinh⟩ := (enabled_dEnter_iff s).mp he
    obtain ⟨-, hout⟩ := idle_outside_of_inh_false hs hinh
    exact inhibitScoped_handler rfl rfl hout
  | dCommit =>
    obtain ⟨-, hexcl⟩ := hs
    exact inhibitScoped_allowed rfl rfl fun hcrit => hexcl ⟨(enabled_dCommit_iff s).mp he, hcrit⟩
  | xFetch =>
    obtain ⟨hrest, -, -⟩ := (enabled_xFetch_iff s).mp he
    refine inhibitScoped_of_eq hs rfl rfl ?_
    rcases fetchPhase_cases s.rxq with h | h <;> simp [performed, State.inCritical, h, hrest]
  | xMask =>
    obtain ⟨-, hidle⟩ := (enabled_xMask_iff s).mp he
    exact inhibitScoped_critical rfl hidle (.inl rfl)
  | xTake =>
    obtain ⟨hinh, hidle⟩ := idle_of_inCritical hs (.inl ((enabled_xTake_iff s).mp he))
    exact inhibitScoped_critical hinh hidle (.inr rfl)
  | xUnmask =>
    obtain ⟨-, hidle⟩ := idle_of_inCritical hs (.inr ((enabled_xUnmask_iff s).mp he))
    exact inhibitScoped_allowed rfl hidle (by simp [performed, State.inCritical])
  | xSendHi =>
    obtain ⟨hx, -⟩ := (enabled_xSendHi_iff s).mp he
    exact inhibitScoped_of_eq hs (sendHigh_inh s) (sendHigh_dphase s) (by simp [performed, State.inCritical, hx])
  | xSendLo =>
    obtain ⟨hx, -⟩ := (enabled_xSendLo_iff s).mp he
    exact inhibitScoped_of_eq hs (sendLow_inh s) (sendLow_dphase s) (by simp [performed, State.inCritical, hx])

/-- Settles O25, by the inversion of a step. -/
theorem stepKeepsInhibitScoped : Obligations.StepKeepsInhibitScoped := by
  intro s t hs h
  have hadv : (advance s).inhibitScoped := hs
  obtain ⟨he, rfl⟩ | ⟨-, rfl⟩ := step_cases h
  · exact performed_inhibitScoped (by simpa using he) hadv
  · exact hadv

/-! ### What is never read before it is written (R25, R26) -/

/-- `s` with other values in the two latches that `RESET(p)` leaves unspecified. -/
def State.withLatches (s : State) (c : PinState) (l : Word) : State := { s with cur := c, latch := l }

/-- Two states agree but for unread latches exactly when one is the other with latch values that differ only where they
will not be read. -/
theorem agreesButUnreadLatches_iff (a b : State) :
    a.agreesButUnreadLatches b ↔
      ∃ c l, a = b.withLatches c l ∧ (b.dphase = .active → c = b.cur) ∧
        (b.xphase = .taken ∨ b.xphase = .sendHi ∨ b.xphase = .sendLo → l = b.latch) := by
  constructor
  · rintro ⟨hab, hcur, hlatch⟩
    have hd : a.dphase = b.dphase := by rw [hab]
    have hx : a.xphase = b.xphase := by rw [hab]
    exact ⟨a.cur, a.latch, hab, hd ▸ hcur, hx ▸ hlatch⟩
  · rintro ⟨c, l, rfl, hcur, hlatch⟩
    exact ⟨rfl, hcur, hlatch⟩

/-- No enabling condition reads a latch. -/
theorem enabled_withLatches (a : AgentStep) (s : State) (c : PinState) (l : Word) :
    enabled a (s.withLatches c l) = enabled a s := by
  cases a <;> rfl

theorem txPush_withLatches (b : Byte) (s : State) (c : PinState) (l : Word) :
    txPush b (s.withLatches c l) = (txPush b s).withLatches c l := by
  unfold txPush State.withLatches
  split <;> rfl

/-- A send reads `LATCH` and not `CUR`. -/
theorem sendHigh_withLatches (s : State) (c : PinState) :
    sendHigh (s.withLatches c s.latch) = (sendHigh s).withLatches c s.latch :=
  congrArg (fun t : State => { t with xphase := .sendLo }) (txPush_withLatches (frameHi s.latch) s c s.latch)

theorem sendLow_withLatches (s : State) (c : PinState) :
    sendLow (s.withLatches c s.latch) = (sendLow s).withLatches c s.latch :=
  congrArg (fun t : State => { t with xphase := .rest }) (txPush_withLatches (frameLo s.latch) s c s.latch)

theorem deliverByte_withLatches (s : State) (c : PinState) (l : Word) :
    deliverByte (s.withLatches c l) = (deliverByte s).withLatches c l := by
  cases hq : s.txq with
  | nil => simp [deliverByte, State.withLatches, hq]
  | cons o q =>
    have hq' : (s.withLatches c l).txq = o :: q := hq
    rw [deliverByte_of_cons hq, deliverByte_of_cons hq']
    rfl

/-- An enabled step keeps the agreement: `D_COMMIT` reads `CUR`, which agrees in the handler; the two sends read `LATCH`,
which agrees from the take on; `D_ENTER` and `X_TAKE` write a latch with a value that agrees. -/
theorem performed_agreesButUnreadLatches {l : AgentStep} {a b : State} (he : enabled l b = true)
    (hab : a.agreesButUnreadLatches b) : (performed l a).agreesButUnreadLatches (performed l b) := by
  rw [agreesButUnreadLatches_iff] at hab ⊢
  obtain ⟨c, w, rfl, hcur, hlatch⟩ := hab
  cases l with
  | ePin | eRx => exact ⟨c, w, rfl, hcur, hlatch⟩
  | eTx =>
    exact ⟨c, w, deliverByte_withLatches b c w, by simpa [performed] using hcur, by simpa [performed] using hlatch⟩
  | dEnter => exact ⟨b.pins, w, rfl, fun _ => rfl, hlatch⟩
  | dCommit =>
    obtain rfl : c = b.cur := hcur ((enabled_dCommit_iff b).mp he)
    exact ⟨b.cur, w, rfl, fun _ => rfl, hlatch⟩
  | xFetch =>
    refine ⟨c, w, rfl, hcur, ?_⟩
    rcases fetchPhase_cases b.rxq with h | h <;> simp [performed, h]
  | xMask => exact ⟨c, w, rfl, hcur, by simp [performed]⟩
  | xTake => exact ⟨c, b.count, rfl, hcur, fun _ => rfl⟩
  | xUnmask =>
    exact ⟨c, w, rfl, hcur, fun _ => hlatch (.inl ((enabled_xUnmask_iff b).mp he))⟩
  | xSendHi =>
    obtain ⟨hx, -⟩ := (enabled_xSendHi_iff b).mp he
    obtain rfl : w = b.latch := hlatch (.inr (.inl hx))
    exact ⟨c, b.latch, sendHigh_withLatches b c, by simpa [performed] using hcur, by simp [performed]⟩
  | xSendLo =>
    obtain ⟨hx, -⟩ := (enabled_xSendLo_iff b).mp he
    obtain rfl : w = b.latch := hlatch (.inr (.inr hx))
    exact ⟨c, b.latch, sendLow_withLatches b c, by simpa [performed] using hcur, by simp [performed]⟩

/-- Agreeing states try the same step, both take it or neither does, and agree after it. -/
theorem stepState_agreesButUnreadLatches {a b : State} (hab : a.agreesButUnreadLatches b) :
    (stepState a).agreesButUnreadLatches (stepState b) := by
  obtain ⟨c, w, ha, hcur, hlatch⟩ := (agreesButUnreadLatches_iff a b).mp hab
  have hnext : nextAgentStep a = nextAgentStep b := by rw [ha]; rfl
  have hen : enabled (nextAgentStep b) a = enabled (nextAgentStep b) b := by rw [ha, enabled_withLatches]
  have hadv : (advance a).agreesButUnreadLatches (advance b) :=
    (agreesButUnreadLatches_iff _ _).mpr ⟨c, w, by rw [ha]; rfl, hcur, hlatch⟩
  rw [stepState_eq, stepState_eq, hnext, hen]
  split
  case isTrue he => exact performed_agreesButUnreadLatches (by simpa using he) hadv
  case isFalse => exact hadv

theorem eq_stepState_of_step {s t : State} (h : step s = .next t) : t = stepState s := by
  rw [stepState, h]

/-- Settles O50. -/
theorem stepKeepsAgreementButUnreadLatches : Obligations.StepKeepsAgreementButUnreadLatches := by
  intro a b a' b' hab ha hb
  rw [eq_stepState_of_step ha, eq_stepState_of_step hb]
  exact stepState_agreesButUnreadLatches hab

theorem after_agreesButUnreadLatches (k : Nat) {a b : State} (hab : a.agreesButUnreadLatches b) :
    (after k a).agreesButUnreadLatches (after k b) := by
  induction k generalizing a b with
  | zero => exact hab
  | succ k ih => exact ih (stepState_agreesButUnreadLatches hab)

/-- After `RESET(p)` neither latch is about to be read. -/
theorem resetAt_agreesButUnreadLatches (q : Params) (p c₁ c₂ : PinState) (l₁ l₂ : Word) (tr : List AgentStep) :
    (State.resetAt q p c₁ l₁ tr).agreesButUnreadLatches (State.resetAt q p c₂ l₂ tr) :=
  ⟨rfl, by simp, by simp⟩

/-- Settles O47: the agreement holds at reset and every step keeps it. -/
theorem unspecifiedLatchesAreNeverRead : Obligations.UnspecifiedLatchesAreNeverRead :=
  ⟨fun _ _ k hab => after_agreesButUnreadLatches k hab,
    fun q p c₁ c₂ l₁ l₂ tr k => after_agreesButUnreadLatches k (resetAt_agreesButUnreadLatches q p c₁ c₂ l₁ l₂ tr)⟩

/-! ### Which steps write each element, and what they write (R25, R71, R72) -/

/-- `PREV` after one step: written by a commit alone, with the sample (R72). -/
theorem stepState_prev (s : State) : (stepState s).prev = if happens .dCommit s then s.cur else s.prev := by
  rcases turn_cases s with ⟨l, -, h, -, hs, hne⟩ | ⟨hne, hs⟩
  · rw [hs]
    cases l with
    | dCommit => simp [performed, h]
    | _ => simp [performed, hne]
  · simp [hs, hne]

/-- `CUR` after one step: written by interrupt entry alone, with the level of the lines (R71). -/
theorem stepState_cur (s : State) : (stepState s).cur = if happens .dEnter s then s.pins else s.cur := by
  rcases turn_cases s with ⟨l, -, h, -, hs, hne⟩ | ⟨hne, hs⟩
  · rw [hs]
    cases l with
    | dEnter => simp [performed, h]
    | _ => simp [performed, hne]
  · simp [hs, hne]

/-- Settles O48: the four elements' values after a step. -/
theorem stepMovesTheDataRegisters : Obligations.StepMovesTheDataRegisters := by
  intro s t h
  obtain rfl := eq_stepState_of_step h
  exact ⟨stepState_count s, stepState_latch s, stepState_prev s, stepState_cur s⟩

/-- How a field is seen to have owners: the passing of a turn leaves it, and so does every step that happens, unless the
step is an owner's (`P`). -/
theorem stepState_eq_or {α : Type} (f : State → α) {P : Prop} {s : State} (hadv : f (advance s) = f s)
    (hperf : ∀ l, happens l s = true → f (performed l (advance s)) = f s ∨ P) : f (stepState s) = f s ∨ P := by
  rcases turn_cases s with ⟨l, -, h, -, hs, -⟩ | ⟨-, hs⟩
  · rw [hs]; exact hperf l h
  · rw [hs]; exact .inl hadv

theorem stepState_pins_eq_or (s : State) :
    (stepState s).pins = s.pins ∨ ∃ v, happens (.ePin v) s = true := by
  refine stepState_eq_or State.pins rfl fun l h => ?_
  cases l with
  | ePin v => exact .inr ⟨v, h⟩
  | _ => exact .inl (by simp [performed])

theorem stepState_pend_eq_or (s : State) :
    (stepState s).pend = s.pend ∨ happens .dEnter s = true ∨ ∃ v, happens (.ePin v) s = true := by
  refine stepState_eq_or State.pend rfl fun l h => ?_
  cases l with
  | dEnter => exact .inr (.inl h)
  | ePin v => exact .inr (.inr ⟨v, h⟩)
  | _ => exact .inl (by simp [performed])

theorem stepState_inh_eq_or (s : State) :
    (stepState s).inh = s.inh ∨ happens .dEnter s = true ∨ happens .dCommit s = true ∨ happens .xMask s = true ∨
      happens .xUnmask s = true := by
  refine stepState_eq_or State.inh rfl fun l h => ?_
  cases l with
  | dEnter => exact .inr (.inl h)
  | dCommit => exact .inr (.inr (.inl h))
  | xMask => exact .inr (.inr (.inr (.inl h)))
  | xUnmask => exact .inr (.inr (.inr (.inr h)))
  | _ => exact .inl (by simp [performed])

theorem stepState_dphase_eq_or (s : State) :
    (stepState s).dphase = s.dphase ∨ happens .dEnter s = true ∨ happens .dCommit s = true := by
  refine stepState_eq_or State.dphase rfl fun l h => ?_
  cases l with
  | dEnter => exact .inr (.inl h)
  | dCommit => exact .inr (.inr h)
  | _ => exact .inl (by simp [performed])

theorem stepState_xphase_eq_or (s : State) :
    (stepState s).xphase = s.xphase ∨ ∃ l : AgentStep, l.agent = .exchange ∧ happens l s = true := by
  refine stepState_eq_or State.xphase rfl fun l h => ?_
  cases l with
  | ePin | eRx | eTx | dEnter | dCommit => exact .inl (by simp [performed])
  | _ => exact .inr ⟨_, rfl, h⟩

theorem stepState_rxq_eq_or (s : State) :
    (stepState s).rxq = s.rxq ∨ happens .xFetch s = true ∨ ∃ b, happens (.eRx b) s = true := by
  refine stepState_eq_or State.rxq rfl fun l h => ?_
  cases l with
  | xFetch => exact .inr (.inl h)
  | eRx b => exact .inr (.inr ⟨b, h⟩)
  | _ => exact .inl (by simp [performed])

theorem stepState_txq_eq_or (s : State) :
    (stepState s).txq = s.txq ∨ happens .xSendHi s = true ∨ happens .xSendLo s = true ∨ happens .eTx s = true := by
  refine stepState_eq_or State.txq rfl fun l h => ?_
  cases l with
  | xSendHi => exact .inr (.inl h)
  | xSendLo => exact .inr (.inr (.inl h))
  | eTx => exact .inr (.inr (.inr h))
  | _ => exact .inl (by simp [performed])

theorem stepState_delivered_eq_or (s : State) :
    (stepState s).delivered = s.delivered ∨ happens .eTx s = true := by
  refine stepState_eq_or State.delivered rfl fun l h => ?_
  cases l with
  | eTx => exact .inr h
  | _ => exact .inl (by simp [performed])

/-- Settles O30: the four data registers by the values a step leaves in them, each other element by its owners. -/
theorem onlyItsOwnersWriteAnElement : Obligations.OnlyItsOwnersWriteAnElement := by
  intro s t h
  obtain rfl := eq_stepState_of_step h
  have hprev : (stepState s).prev = s.prev ∨ happens .dCommit s = true := by rw [stepState_prev]; split <;> simp [*]
  have hcur : (stepState s).cur = s.cur ∨ happens .dEnter s = true := by rw [stepState_cur]; split <;> simp [*]
  have hcount : (stepState s).count = s.count ∨ happens .dCommit s = true ∨ happens .xTake s = true := by
    rw [stepState_count]; split_ifs <;> simp [*]
  have hlatch : (stepState s).latch = s.latch ∨ happens .xTake s = true := by rw [stepState_latch]; split <;> simp [*]
  exact ⟨stepState_pins_eq_or s, hprev, hcur, hcount, hlatch, stepState_pend_eq_or s, stepState_inh_eq_or s,
    stepState_dphase_eq_or s, stepState_xphase_eq_or s, stepState_rxq_eq_or s, stepState_txq_eq_or s,
    stepState_delivered_eq_or s, stepState_params s⟩

/-! ### Reset (R26, R173) -/

theorem resetAt_quiescent (q : Params) (p c : PinState) (l : Word) (tr : List AgentStep) :
    (State.resetAt q p c l tr).quiescent :=
  ⟨rfl, rfl, rfl, rfl, rfl⟩

/-- In a quiescent state every internal step lacks what it needs: `D_ENTER` a pending trigger, `D_COMMIT` the handler,
`X_FETCH` a byte, every other step of the exchange agent its phase. -/
theorem not_enabled_of_quiescent {s : State} (hs : s.quiescent) {a : AgentStep} (ha : a.agent ≠ .environment) :
    enabled a s = false := by
  obtain ⟨hidle, hrest, hpend, hrxq, -⟩ := hs
  cases a with
  | ePin | eRx | eTx => exact absurd rfl ha
  | dEnter => simp [enabled, deliverable, hpend]
  | dCommit => simp [enabled, hidle]
  | xFetch => simp [enabled, rxAvail, hrxq]
  | xMask | xTake | xUnmask | xSendHi | xSendLo => simp [enabled, hrest]

/-- Settles O23: the values by the definition of `RESET(p)`, the rest because it leaves a quiescent state. -/
theorem resetLeavesTheQuietState : Obligations.ResetLeavesTheQuietState := by
  intro q p c l tr
  have hquiet := resetAt_quiescent q p c l tr
  exact ⟨rfl, rfl, rfl, rfl, rfl, rfl, rfl, rfl, rfl, rfl, rfl, hquiet, fun _ ha => not_enabled_of_quiescent hquiet ha⟩

end Sys2Proof.Machine

/-! SUPPORT. The statements of 20_memory: commands are served first-in first-out (R37), what a take reports and the
conservation law of `COUNT` (R40, R41), that nothing disables a take once masked (R43), and the steps of `READ_RESET` with
their frames (R38). -/

namespace Sys2Proof.Machine

/-! ### Steps that happen -/

theorem enabled_of_happens {l : AgentStep} {s : State} (h : happens l s = true) : enabled l s = true := by
  simp only [happens, Bool.and_eq_true] at h
  exact h.2

theorem happens_eq_false_of_not_enabled {l : AgentStep} {s : State} (h : enabled l s = false) : happens l s = false := by
  simp [happens, h]

/-! ### The take waits in `MASKED` until it happens (R43) -/

/-- The phase leaves the exchange agent one step at most: in `MASKED` that step is `X_TAKE`. -/
theorem eq_xTake_of_enabled_masked {l : AgentStep} {s : State} (hm : s.xphase = .masked) (hl : l.agent = .exchange)
    (he : enabled l s = true) : l = .xTake := by
  cases l with
  | xTake => rfl
  | xFetch | xMask | xUnmask | xSendHi | xSendLo => simp [enabled, hm] at he
  | ePin | eRx | eTx | dEnter | dCommit => simp [AgentStep.agent] at hl

theorem stepState_xphase_masked {s : State} (hm : s.xphase = .masked) (hnt : happens .xTake s = false) :
    (stepState s).xphase = .masked := by
  obtain heq | ⟨l, hl, hl'⟩ := stepState_xphase_eq_or s
  · rw [heq, hm]
  · obtain rfl := eq_xTake_of_enabled_masked hm hl (enabled_of_happens hl')
    rw [hnt] at hl'
    cases hl'

/-- A commit is the one step besides a take that could move `COUNT` or `PREV`, and the critical section excludes it
(R42). -/
theorem not_happens_dCommit_of_masked {s : State} (hs : s.inhibitScoped) (hm : s.xphase = .masked) :
    happens .dCommit s = false := by
  obtain ⟨-, hcritical⟩ := handlerAndCriticalSectionExclude s hs
  exact happens_eq_false_of_not_enabled (hcritical (.inl hm) .dCommit rfl)

/-- Settles O29: only the exchange agent writes `XPHASE`, and in `MASKED` its one step is the take. -/
theorem nothingDisablesTheTake : Obligations.NothingDisablesTheTake := by
  intro s t hm hnt h
  obtain rfl := eq_stepState_of_step h
  have hm' := stepState_xphase_masked hm hnt
  refine ⟨hm', (enabled_xTake_iff _).mpr hm', fun hs => ?_⟩
  have hnc := not_happens_dCommit_of_masked hs hm
  exact ⟨by simp [stepState_count, hnt, hnc], by simp [stepState_prev, hnc]⟩

/-! ### Conservation of the count (R41) -/

/-- Adding a delta in 16 bits is adding it modulo 65536. -/
theorem add_sext16_modEq (c : Word) (d : Int) : ((c + sext16 d).toNat : Int) ≡ c.toNat + d [ZMOD 65536] := by
  simp only [sext16, BitVec.toNat_add, BitVec.toNat_ofInt, Int.ModEq]
  omega

/-- `COUNT` after one step, as the law counts it: one commit adds its delta, one take removes what it takes. -/
theorem stepState_count_modEq (s : State) :
    ((stepState s).count.toNat : Int) ≡
      s.count.toNat + (if happens .dCommit s then delta s.prev s.cur else 0) -
        (if happens .xTake s then (s.count.toNat : Int) else 0) [ZMOD 65536] := by
  rw [stepState_count]
  rcases turn_cases s with ⟨l, -, h, -, -, hne⟩ | ⟨hne, -⟩
  · cases l with
    | dCommit => simpa [h, hne] using add_sext16_modEq s.count (delta s.prev s.cur)
    | xTake => simp [h, hne]
    | _ => simp [hne]
  · simp [hne]

theorem sum_committedDeltas_succ (k : Nat) (s : State) :
    (committedDeltas (k + 1) s).sum =
      (if happens .dCommit s then delta s.prev s.cur else 0) + (committedDeltas k (stepState s)).sum := by
  rw [committedDeltas, List.sum_append]
  split <;> simp

/-- The sum of the values taken, as unsigned numbers (R41's `F`). -/
def takenSum (k : Nat) (s : State) : Int := ((takenValues k s).map fun v => (v.toNat : Int)).sum

theorem takenSum_succ (k : Nat) (s : State) :
    takenSum (k + 1) s = (if happens .xTake s then (s.count.toNat : Int) else 0) + takenSum k (stepState s) := by
  rw [takenSum, takenValues, List.map_append, List.sum_append, takenSum]
  split <;> simp

theorem after_count_modEq (k : Nat) (s : State) :
    ((after k s).count.toNat : Int) ≡ s.count.toNat + (committedDeltas k s).sum - takenSum k s [ZMOD 65536] := by
  induction k generalizing s with
  | zero => simp [committedDeltas, takenSum, takenValues]
  | succ k ih =>
    rw [after_succ, sum_committedDeltas_succ, takenSum_succ]
    have hrest := ih (stepState s)
    have hstep := stepState_count_modEq s
    simp only [Int.ModEq] at *
    omega

/-- A word is its own residue. -/
theorem toNat_eq_emod_of_modEq {c : Word} {n : Int} (h : (c.toNat : Int) ≡ n [ZMOD 65536]) :
    (c.toNat : Int) = n % 65536 := by
  simp only [Int.ModEq] at h
  omega

/-- Settles O39: the step's congruence summed over the run; `RESET(p)` starts the count at 0. -/
theorem conservationLaw : Obligations.ConservationLaw := by
  refine ⟨fun s k => toNat_eq_emod_of_modEq (after_count_modEq k s), fun q p c l tr k => ?_⟩
  have h := toNat_eq_emod_of_modEq (after_count_modEq k (State.resetAt q p c l tr))
  simpa [takenSum] using h

/-! ### What a take reports (R40) -/

/-- From a cleared count, with no take on the way, `COUNT` is the sum of the committed deltas in 16 bits. -/
theorem after_count_of_cleared {k : Nat} {s : State} (h0 : s.count = 0x0000#16) (hnt : takenValues k s = []) :
    (after k s).count = BitVec.ofInt 16 (committedDeltas k s).sum := by
  have h := after_count_modEq k s
  simp only [takenSum, hnt, h0, List.map_nil, List.sum_nil, Int.ModEq, BitVec.toNat_ofNat] at h
  apply BitVec.eq_of_toNat_eq
  rw [BitVec.toNat_ofInt]
  omega

/-- A take latches the count, so it reports the commits since the count was last cleared. -/
theorem take_reports_commits_since_cleared {k : Nat} {s : State} (h0 : s.count = 0x0000#16)
    (hnt : takenValues k s = []) (ht : happens .xTake (after k s) = true) :
    (stepState (after k s)).latch = BitVec.ofInt 16 (committedDeltas k s).sum := by
  rw [stepState_latch, if_pos ht, after_count_of_cleared h0 hnt]

/-- Settles O40: the take before, or else `RESET(p)`, cleared the count. -/
theorem takeReportsTheCommitsSinceTheLast : Obligations.TakeReportsTheCommitsSinceTheLast := by
  refine ⟨fun s k hprev hnt ht => ?_, fun q p c l tr k hnt ht => ?_⟩
  · have h0 : (stepState s).count = 0x0000#16 := by rw [stepState_count, if_pos hprev]
    exact take_reports_commits_since_cleared h0 hnt ht
  · exact take_reports_commits_since_cleared (resetAt_count q p c l tr) hnt ht

/-! ### `RXQ` is first-in first-out (R37) -/

theorem fetchedBytes_succ (k : Nat) (s : State) :
    fetchedBytes (k + 1) s = fetchedBytes 1 s ++ fetchedBytes k (stepState s) := by
  simp [fetchedBytes]

theorem receivedBytes_succ (k : Nat) (s : State) :
    receivedBytes (k + 1) s = receivedBytes 1 s ++ receivedBytes k (stepState s) := by
  simp [receivedBytes]

theorem fetchedBytes_one (s : State) : fetchedBytes 1 s = if happens .xFetch s then s.rxq.take 1 else [] := by
  simp [fetchedBytes]

theorem receivedBytes_one_of_eRx {b : Byte} {s : State} (h : happens (.eRx b) s = true) : receivedBytes 1 s = [b] := by
  simp only [happens, Bool.and_eq_true, beq_iff_eq] at h
  simp [receivedBytes, h]

theorem receivedBytes_one_of_no_eRx {s : State} (h : ∀ b, happens (.eRx b) s = false) : receivedBytes 1 s = [] := by
  cases hl : nextAgentStep s with
  | eRx b => simpa [receivedBytes, happens, hl] using h b
  | _ => simp [receivedBytes, hl]

/-- In one turn `RXQ` loses what is consumed at its head and gains what is received at its tail. -/
theorem stepState_rxq_fifo (s : State) : fetchedBytes 1 s ++ (stepState s).rxq = s.rxq ++ receivedBytes 1 s := by
  rw [fetchedBytes_one]
  rcases turn_cases s with ⟨l, -, h, -, hs, hne⟩ | ⟨hne, hs⟩
  · rw [hs]
    cases l with
    | eRx b => simp [performed, hne, receivedBytes_one_of_eRx h]
    | xFetch =>
      rw [receivedBytes_one_of_no_eRx fun b => hne _ (by simp)]
      simpa [performed, h] using List.take_append_drop 1 s.rxq
    | _ =>
      rw [receivedBytes_one_of_no_eRx fun b => hne _ (by simp)]
      simp [performed, hne]
  · simp [hs, hne, receivedBytes_one_of_no_eRx fun b => hne _]

theorem after_rxq_fifo (k : Nat) (s : State) : fetchedBytes k s ++ (after k s).rxq = s.rxq ++ receivedBytes k s := by
  induction k generalizing s with
  | zero => simp [fetchedBytes, receivedBytes]
  | succ k ih =>
    calc fetchedBytes (k + 1) s ++ (after (k + 1) s).rxq
        = fetchedBytes 1 s ++ (fetchedBytes k (stepState s) ++ (after k (stepState s)).rxq) := by
          rw [fetchedBytes_succ, after_succ, List.append_assoc]
      _ = (fetchedBytes 1 s ++ (stepState s).rxq) ++ receivedBytes k (stepState s) := by
          rw [ih, List.append_assoc]
      _ = s.rxq ++ receivedBytes (k + 1) s := by
          rw [stepState_rxq_fifo, receivedBytes_succ k, List.append_assoc]

theorem not_happens_xFetch_of_not_rest {s : State} (h : s.xphase ≠ .rest) : happens .xFetch s = false :=
  Bool.eq_false_iff.mpr fun hf =>
    have ⟨hrest, _, _⟩ := (enabled_xFetch_iff s).mp (enabled_of_happens hf)
    h hrest

/-- Settles O46, by induction on the steps; a fetch is enabled in `REST` alone. -/
theorem commandsAreServedInOrder : Obligations.CommandsAreServedInOrder :=
  ⟨fun s k => after_rxq_fifo k s, fun _ => not_happens_xFetch_of_not_rest⟩

/-! ### The six steps of `READ_RESET` (R38, R122) -/

theorem exec_readReset (s : State) : exec .readReset s = execReadReset s := rfl

/-- A push writes `TXQ` and nothing else. -/
theorem txPush_eq (b : Byte) (s : State) : txPush b s = { s with txq := (txPush b s).txq } := by
  unfold txPush
  split <;> rfl

theorem sendHigh_eq (s : State) : sendHigh s = { s with txq := (txPush (frameHi s.latch) s).txq, xphase := .sendLo } := by
  rw [sendHigh, txPush_eq]

theorem sendLow_eq (s : State) : sendLow s = { s with txq := (txPush (frameLo s.latch) s).txq, xphase := .rest } := by
  rw [sendLow, txPush_eq]

theorem txPush_txq_of_room {b : Byte} {s : State} (h : hasRoom s.params.txDepth s.txq = true) :
    (txPush b s).txq = s.txq ++ [b] := by
  rw [txPush_of_room h]

/-- A frame write goes on to the next phase whatever the push leaves in `TXQ`, which is within its depth. -/
theorem exec_readReset_send {s : State} (h : s.xphase = .sendHi ∨ s.xphase = .sendLo) :
    ∃ q, fitsDepth s.params.txDepth q = true ∧ exec .readReset s =
      .next { s with txq := q, xphase := if s.xphase = .sendHi then .sendLo else .rest } := by
  rw [exec_readReset]
  rcases h with h | h
  · exact ⟨_, txPush_fits (frameHi s.latch) s, by rw [execReadReset_sendHi h, sendHigh_eq, if_pos h]⟩
  · exact ⟨_, txPush_fits (frameLo s.latch) s, by rw [execReadReset_sendLo h, sendLow_eq, h]; rfl⟩

/-- Settles O13, phase by phase. -/
theorem readResetRunsInEveryPhase : Obligations.ReadResetRunsInEveryPhase := by
  intro s
  refine ⟨?rest, ?armed, ?masked, ?taken, ?sendHi, ?sendLo, fun h _ => exec_readReset_send h⟩
  case rest => exact fun h => execReadReset_rest h
  case armed => exact fun h => execReadReset_armed h
  case masked => exact fun h => execReadReset_masked h
  case taken => exact fun h => execReadReset_taken h
  case sendHi =>
    intro h hroom
    rw [exec_readReset, execReadReset_sendHi h, sendHigh_eq, txPush_txq_of_room hroom]
  case sendLo =>
    intro h hroom
    rw [exec_readReset, execReadReset_sendLo h, sendLow_eq, txPush_txq_of_room hroom]

end Sys2Proof.Machine

/-! SUPPORT. The statements of 30_encoding: the receiver rebuilds the count from a frame (R54), the word of every
well-formed instruction decodes to it (R56, R57, R59), and each word is in exactly one row of the opcode table. -/

namespace Sys2Proof.Machine

/-! ### The frame (R54) -/

theorem frameHi_append_frameLo (v : Word) : frameHi v ++ frameLo v = v := by
  calc frameHi v ++ frameLo v = v.extractLsb' 0 16 := BitVec.extractLsb'_append_extractLsb'_eq_extractLsb' rfl
    _ = v := BitVec.extractLsb'_eq_self

theorem frameHi_toNat (v : Word) : (frameHi v).toNat = v.toNat / 256 := by
  simp only [frameHi, BitVec.extractLsb'_toNat, Nat.shiftRight_eq_div_pow]
  omega

theorem frameLo_toNat (v : Word) : (frameLo v).toNat = v.toNat % 256 := by
  simp [frameLo]

/-- The sign bit `hi[7]` of the frame is the sign of the value. -/
theorem frameHi_signBit (v : Word) : (frameHi v).getLsbD 7 = decide (32768 ≤ v.toNat) := by
  calc (frameHi v).getLsbD 7 = v.msb := by simp [frameHi, BitVec.msb_eq_getLsbD_last]
    _ = decide (32768 ≤ v.toNat) := BitVec.msb_eq_decide v

theorem rebuildCount_frame (v : Word) : rebuildCount (frameHi v) (frameLo v) = sint16 v := by
  simp only [rebuildCount, sint16, frameHi_toNat, frameLo_toNat, frameHi_signBit, decide_eq_true_eq]
  split_ifs <;> omega

/-- Settles O16. -/
theorem receiverRebuildsTheCount : Obligations.ReceiverRebuildsTheCount :=
  fun v => ⟨frameHi_append_frameLo v, rebuildCount_frame v⟩

/-! ### A byte in a pattern (R57) -/

theorem matchesPattern_iff {m k b : Byte} : matchesPattern m k b = true ↔ b &&& k = m := by simp [matchesPattern]

/-- A byte in one pattern is outside every pattern that fixes some bit both fix to the other value. -/
theorem matchesPattern_eq_false_of_conflict {m k m' k' b : Byte} (h : matchesPattern m k b = true)
    (hc : m &&& k' ≠ m' &&& k) : matchesPattern m' k' b = false := by
  rw [Bool.eq_false_iff]
  intro h'
  rw [matchesPattern_iff] at h h'
  subst h h'
  exact hc (by ac_rfl)

/-- The read-command is in a pattern only if the pattern's fixed bits are its own. -/
theorem ne_cmdRead_of_matchesPattern {m k b : Byte} (h : matchesPattern m k b = true) (hc : 0x72#8 &&& k ≠ m) :
    b ≠ Config.cmdRead := by
  rintro rfl
  exact hc (matchesPattern_iff.mp h)

/-! ### Decoding and encoding (R56, R57, R59) -/

/-- The word of a well-formed instruction decodes to it: a byte in the pattern of one `IGNORE` row is not `0x72` and in
no other row's pattern. -/
theorem decodeCode_encode {i : Instr} (h : i.wellFormed = true) : decodeCode (encode i) = i := by
  cases i with
  | ignore1xxxxxxx b | ignore00xxxxxx b | ignore010xxxxx b | ignore0110xxxx b | ignore01111xxx b | ignore011101xx b
  | ignore0111000x b =>
    rw [Instr.wellFormed] at h
    simp [encode, decodeCode, decodeCmd, h, ne_cmdRead_of_matchesPattern h, matchesPattern_eq_false_of_conflict h]
  | _ => rfl

/-- A `TRANS` code's byte has four zero high bits and gives the code back. -/
theorem decode_bytes_append (c : Code) (rest : List Byte) :
    decode c.format (c.bytes ++ rest) = .ok (decodeCode c, rest) := by
  cases c with
  | cmd b => rfl
  | trans c =>
    have hval : (c.setWidth 8).toNat = c.toNat := BitVec.toNat_setWidth_of_le (by decide)
    have hlow : (c.setWidth 8).extractLsb' 0 4 = c := by
      apply BitVec.eq_of_toNat_eq
      rw [BitVec.extractLsb'_toNat, hval]
      exact Nat.mod_eq_of_lt c.isLt
    have hlt : (c.setWidth 8).toNat < 16 := hval ▸ c.isLt
    simp only [Code.format, Code.bytes, List.singleton_append, decode, decodeCode, hlow, if_pos hlt]

/-- Settles O32: the bytes of a word give the word's instruction, which is the one encoded. -/
theorem decodeEncodeRoundTrip : Obligations.DecodeEncodeRoundTrip := by
  intro i rest h
  rw [decode_bytes_append, decodeCode_encode h]

theorem decodeTrans_of_encode {c : TransCode} {i : Instr} (h : i.wellFormed = true) (he : encode i = .trans c) :
    decodeTrans c = i := by
  simpa [he, decodeCode] using decodeCode_encode h

theorem decodeCmd_of_encode {b : Byte} {i : Instr} (h : i.wellFormed = true) (he : encode i = .cmd b) :
    decodeCmd b = i := by
  simpa [he, decodeCode] using decodeCode_encode h

/-- Settles O35: each word is the word of the instruction named. -/
theorem wordsOfTheTableDecode : Obligations.WordsOfTheTableDecode :=
  ⟨decodeTrans_of_encode rfl rfl, decodeTrans_of_encode rfl rfl, decodeTrans_of_encode rfl rfl,
    decodeTrans_of_encode rfl rfl, decodeCmd_of_encode rfl rfl, decodeCmd_of_encode rfl rfl,
    decodeCmd_of_encode rfl rfl, decodeCmd_of_encode rfl rfl, decodeCmd_of_encode rfl rfl⟩

theorem decodeTrans_wellFormed_and_encode : ∀ c : TransCode,
    (decodeTrans c).wellFormed = true ∧ encode (decodeTrans c) = .trans c := by
  decide

/-- The last arm of the decoder is `0x73` alone. -/
theorem eq_of_decodeCmd_eq_ignore01110011 : ∀ b : Byte, decodeCmd b = .ignore01110011 → b = 0x73#8 := by
  decide

/-- Each arm of the decoder but the first and the last gives the byte itself, in the arm's own pattern. -/
theorem decodeCmd_wellFormed_and_encode (b : Byte) :
    (decodeCmd b).wellFormed = true ∧ encode (decodeCmd b) = .cmd b := by
  have hlast := eq_of_decodeCmd_eq_ignore01110011 b
  unfold decodeCmd at hlast ⊢
  split_ifs at hlast ⊢ with hread
  case pos => exact ⟨rfl, congrArg Code.cmd hread.symm⟩
  case neg => exact ⟨rfl, congrArg Code.cmd (hlast rfl).symm⟩
  all_goals exact ⟨‹_›, rfl⟩

/-- Every word of either format decodes to a well-formed instruction, whose word it is (R58). -/
theorem decodeCode_wellFormed_and_encode (c : Code) :
    (decodeCode c).wellFormed = true ∧ encode (decodeCode c) = c := by
  cases c with
  | trans c => exact decodeTrans_wellFormed_and_encode c
  | cmd b => exact decodeCmd_wellFormed_and_encode b

/-! ### The rows of the opcode table (R56, R57) -/

/-- The law of each instruction, for all of them. -/
theorem encode_matches_row : ∀ i : Instr, Laws.EncodingMatchesRow.Statement i
  | .qHold00_00 => Laws.EncodingMatchesRow.qHold00_00
  | .qDec00_01 => Laws.EncodingMatchesRow.qDec00_01
  | .qInc00_10 => Laws.EncodingMatchesRow.qInc00_10
  | .qSkip00_11 => Laws.EncodingMatchesRow.qSkip00_11
  | .qInc01_00 => Laws.EncodingMatchesRow.qInc01_00
  | .qHold01_01 => Laws.EncodingMatchesRow.qHold01_01
  | .qSkip01_10 => Laws.EncodingMatchesRow.qSkip01_10
  | .qDec01_11 => Laws.EncodingMatchesRow.qDec01_11
  | .qDec10_00 => Laws.EncodingMatchesRow.qDec10_00
  | .qSkip10_01 => Laws.EncodingMatchesRow.qSkip10_01
  | .qHold10_10 => Laws.EncodingMatchesRow.qHold10_10
  | .qInc10_11 => Laws.EncodingMatchesRow.qInc10_11
  | .qSkip11_00 => Laws.EncodingMatchesRow.qSkip11_00
  | .qInc11_01 => Laws.EncodingMatchesRow.qInc11_01
  | .qDec11_10 => Laws.EncodingMatchesRow.qDec11_10
  | .qHold11_11 => Laws.EncodingMatchesRow.qHold11_11
  | .readReset => Laws.EncodingMatchesRow.readReset
  | .ignore1xxxxxxx b => Laws.EncodingMatchesRow.ignore1xxxxxxx b
  | .ignore00xxxxxx b => Laws.EncodingMatchesRow.ignore00xxxxxx b
  | .ignore010xxxxx b => Laws.EncodingMatchesRow.ignore010xxxxx b
  | .ignore0110xxxx b => Laws.EncodingMatchesRow.ignore0110xxxx b
  | .ignore01111xxx b => Laws.EncodingMatchesRow.ignore01111xxx b
  | .ignore011101xx b => Laws.EncodingMatchesRow.ignore011101xx b
  | .ignore0111000x b => Laws.EncodingMatchesRow.ignore0111000x b
  | .ignore01110011 => Laws.EncodingMatchesRow.ignore01110011

theorem covers_iff {r : OpcodeRow} {c : Code} :
    r.covers c = true ↔ r.format = c.format ∧ c.word &&& r.mask = r.matchBits := by
  simp [OpcodeRow.covers]

/-- Two rows of one format whose patterns fix some bit to different values. -/
def rowsConflict (r r' : OpcodeRow) : Prop :=
  r.format = r'.format → r.matchBits &&& r'.mask ≠ r'.matchBits &&& r.mask

theorem not_covers_of_rowsConflict {r r' : OpcodeRow} {c : Code} (hc : rowsConflict r r') (h : r.covers c = true) :
    ¬ r'.covers c = true := by
  intro h'
  obtain ⟨hf, hm⟩ := covers_iff.mp h
  obtain ⟨hf', hm'⟩ := covers_iff.mp h'
  refine hc (hf.trans hf'.symm) ?_
  rw [← hm, ← hm', Nat.and_right_comm]

theorem opcodeTable_pairwise_rowsConflict : opcodeTable.Pairwise rowsConflict := by
  unfold rowsConflict
  decide

/-- Of rows in pairwise conflict at most one covers a word. -/
theorem countP_covers_le_one {l : List OpcodeRow} (hl : l.Pairwise rowsConflict) (c : Code) :
    l.countP (fun r => r.covers c) ≤ 1 := by
  induction hl with
  | nil => simp
  | @cons r l hr _ ih =>
    by_cases h : r.covers c = true
    · have hnone : l.countP (fun r => r.covers c) = 0 :=
        List.countP_eq_zero.mpr fun r' hr' => not_covers_of_rowsConflict (hr r' hr') h
      simp [hnone, h]
    · simpa [h] using ih

/-- The row of the decoded instruction covers the word, and it is the only one. -/
theorem code_matches_exactly_its_row (c : Code) :
    opcodeTable.countP (fun r => r.covers c) = 1 ∧
      (opcodeTable[(decodeCode c).rowIndex]?.map fun r => r.covers c) = some true := by
  obtain ⟨hwf, henc⟩ := decodeCode_wellFormed_and_encode c
  obtain ⟨r, hrow, hcovers⟩ := encode_matches_row (decodeCode c) hwf
  rw [henc] at hcovers
  have hpos : 0 < opcodeTable.countP (fun r => r.covers c) :=
    List.countP_pos_iff.mpr ⟨r, List.mem_of_getElem? hrow, hcovers⟩
  have hle := countP_covers_le_one opcodeTable_pairwise_rowsConflict c
  exact ⟨by omega, by rw [hrow, Option.map_some, hcovers]⟩

/-- Settles O34: the two formats are the two kinds of word. -/
theorem everyWordMatchesExactlyOneRow : Obligations.EveryWordMatchesExactlyOneRow :=
  ⟨fun b => code_matches_exactly_its_row (.cmd b), fun c => code_matches_exactly_its_row (.trans c)⟩

end Sys2Proof.Machine

/-! SUPPORT. The statements of 40_quadrature_decoder: the sixteen transitions (R74 to R89) and the closed forms of their
delta (R92), the two steps of a handler run (R71, R72) and what holds through it (R70, R90), the counting law (R94), and
full cycles (R93) and bounces (R95), over the meanings alone and in a run. -/

namespace Sys2Proof.Machine

/-! ### The transition rows (R74 to R89) -/

/-- The row that a pair of levels decodes to, as `exec` has it in every state. -/
theorem transRowRuns_decodeTrans (p c : PinState) : TransRowRuns (decodeTrans (transCode p c)) c (delta p c) :=
  exec_decodeTrans p c

theorem transRowMeans_decodeTrans (p c : PinState) :
    TransRowMeans (decodeTrans (transCode p c)) (transCode p c) p c (delta p c) := by
  obtain ⟨-, hencode⟩ := decodeTrans_wellFormed_and_encode (transCode p c)
  exact ⟨rfl, rfl, hencode, rfl, fun s _ _ _ => transRowRuns_decodeTrans p c s⟩

/-- Settles O1: the pairs of class INC. -/
theorem incTransitionsCountUp : Obligations.IncTransitionsCountUp :=
  ⟨transRowMeans_decodeTrans 0b00#2 0b10#2, transRowMeans_decodeTrans 0b01#2 0b00#2,
    transRowMeans_decodeTrans 0b10#2 0b11#2, transRowMeans_decodeTrans 0b11#2 0b01#2⟩

/-- Settles O2: the pairs of class DEC. -/
theorem decTransitionsCountDown : Obligations.DecTransitionsCountDown :=
  ⟨transRowMeans_decodeTrans 0b00#2 0b01#2, transRowMeans_decodeTrans 0b01#2 0b11#2,
    transRowMeans_decodeTrans 0b10#2 0b00#2, transRowMeans_decodeTrans 0b11#2 0b10#2⟩

/-- Settles O3: the pairs of class HOLD. -/
theorem holdTransitionsKeepCount : Obligations.HoldTransitionsKeepCount :=
  ⟨transRowMeans_decodeTrans 0b00#2 0b00#2, transRowMeans_decodeTrans 0b01#2 0b01#2,
    transRowMeans_decodeTrans 0b10#2 0b10#2, transRowMeans_decodeTrans 0b11#2 0b11#2⟩

/-- Settles O4: the pairs of class SKIP. -/
theorem skipTransitionsResynchronise : Obligations.SkipTransitionsResynchronise :=
  ⟨transRowMeans_decodeTrans 0b00#2 0b11#2, transRowMeans_decodeTrans 0b01#2 0b10#2,
    transRowMeans_decodeTrans 0b10#2 0b01#2, transRowMeans_decodeTrans 0b11#2 0b00#2⟩

/-- Settles O55: the sixteen pairs, in the order of their codes. -/
theorem transRowsRunInEveryState : Obligations.TransRowsRunInEveryState :=
  ⟨transRowRuns_decodeTrans 0b00#2 0b00#2, transRowRuns_decodeTrans 0b00#2 0b01#2,
    transRowRuns_decodeTrans 0b00#2 0b10#2, transRowRuns_decodeTrans 0b00#2 0b11#2,
    transRowRuns_decodeTrans 0b01#2 0b00#2, transRowRuns_decodeTrans 0b01#2 0b01#2,
    transRowRuns_decodeTrans 0b01#2 0b10#2, transRowRuns_decodeTrans 0b01#2 0b11#2,
    transRowRuns_decodeTrans 0b10#2 0b00#2, transRowRuns_decodeTrans 0b10#2 0b01#2,
    transRowRuns_decodeTrans 0b10#2 0b10#2, transRowRuns_decodeTrans 0b10#2 0b11#2,
    transRowRuns_decodeTrans 0b11#2 0b00#2, transRowRuns_decodeTrans 0b11#2 0b01#2,
    transRowRuns_decodeTrans 0b11#2 0b10#2, transRowRuns_decodeTrans 0b11#2 0b11#2⟩

/-! ### The delta function (R73, R92)

A fact about the table is decided on its sixteen pairs. -/

theorem delta_eq_one_iff : ∀ p c : PinState,
    delta p c = 1 ↔ c.getLsbD 1 = !p.getLsbD 0 ∧ c.getLsbD 0 = p.getLsbD 1 := by decide

theorem delta_eq_neg_one_iff : ∀ p c : PinState,
    delta p c = -1 ↔ c.getLsbD 1 = p.getLsbD 0 ∧ c.getLsbD 0 = !p.getLsbD 1 := by decide

theorem delta_trichotomy : ∀ p c : PinState, delta p c = 1 ∨ delta p c = -1 ∨ delta p c = 0 := by decide

theorem delta_eq_xor_form : ∀ p c : PinState, delta p c =
    if p ^^^ c = 0b00#2 ∨ p ^^^ c = 0b11#2 then 0
    else if (p.getLsbD 1).xor (c.getLsbD 0) = false then 1 else -1 := by decide

theorem delta_antisymm : ∀ p c : PinState, delta p c = -delta c p := by decide

/-- Settles O6. -/
theorem deltaClosedFormsAgree : Obligations.DeltaClosedFormsAgree := fun p c =>
  ⟨delta_eq_one_iff p c, delta_eq_neg_one_iff p c, delta_trichotomy p c, delta_eq_xor_form p c, delta_antisymm p c⟩

theorem delta_self (p : PinState) : delta p p = 0 := by
  have := delta_antisymm p p
  omega

theorem ne_of_delta_ne_zero {p c : PinState} (h : delta p c ≠ 0) : c ≠ p := by
  rintro rfl
  exact h (delta_self c)

/-- Two single steps in one direction lead to the opposite level, both lines inverted. -/
theorem eq_not_of_delta_eq_delta : ∀ {a b c : PinState}, delta a b ≠ 0 → delta a b = delta b c → c = ~~~a := by decide

/-- Two single steps and two more in the same direction lead back (R93). -/
theorem eq_of_four_equal_deltas {a b c d e : PinState} {x : Int} (hx : x ≠ 0) (hab : delta a b = x)
    (hbc : delta b c = x) (hcd : delta c d = x) (hde : delta d e = x) : e = a := by
  have hc : c = ~~~a := eq_not_of_delta_eq_delta (hab ▸ hx) (hab.trans hbc.symm)
  have he : e = ~~~c := eq_not_of_delta_eq_delta (hcd ▸ hx) (hcd.trans hde.symm)
  rw [he, hc, BitVec.not_not]

theorem sext16_add (x y : Int) : sext16 (x + y) = sext16 x + sext16 y := BitVec.ofInt_add x y

/-- Adding one delta four times is adding `COUNTS_PER_CYCLE` times the delta. -/
theorem add_four_sext16 (n : Word) (x : Int) :
    n + sext16 x + sext16 x + sext16 x + sext16 x = n + BitVec.ofInt 16 (Config.countsPerCycle * x) := by
  have h : (Config.countsPerCycle : Int) * x = x + x + x + x := by simp only [Config.countsPerCycle]; omega
  rw [h, ← sext16, sext16_add, sext16_add, sext16_add]
  ac_rfl

/-- A delta and the delta back cancel (R95). -/
theorem add_sext16_delta_back (n : Word) (a b : PinState) : n + sext16 (delta a b) + sext16 (delta b a) = n := by
  rw [BitVec.add_assoc, ← sext16_add, delta_antisymm a b, Int.add_comm, Int.add_right_neg]
  exact BitVec.add_zero n

/-! ### Rows composed (R93, R95 over the meanings alone) -/

@[simp] theorem execSeq_nil (s : State) : execSeq [] s = .next s := rfl

theorem execSeq_decodeTrans_cons (p c : PinState) (is : List Instr) (s : State) :
    execSeq (decodeTrans (transCode p c) :: is) s =
      execSeq is { s with count := s.count + sext16 (delta p c), prev := c, inh := false, dphase := .idle } := by
  rw [execSeq, exec_decodeTrans]

/-- Settles O42: the four levels are a cycle and the four equal deltas add up. -/
theorem fullCycleCountsFour : Obligations.FullCycleCountsFour := by
  intro s a b c d e x hx hab hbc hcd hde
  obtain rfl : e = a := eq_of_four_equal_deltas (by omega) hab hbc hcd hde
  refine ⟨rfl, ?_⟩
  simp only [execSeq_decodeTrans_cons, execSeq_nil, hab, hbc, hcd, hde, add_four_sext16]

/-- Settles O43: the two deltas are opposite. -/
theorem bounceCancels : Obligations.BounceCancels := by
  intro s a b
  simp only [execSeq_decodeTrans_cons, execSeq_nil, add_sext16_delta_back]

/-! ### The two steps of a handler run (R71, R72) -/

theorem step_eq_stepState (s : State) : step s = .next (stepState s) := by rw [step_eq, stepState_eq]

theorem step_of_nextAgentStep {s : State} {l : AgentStep} (h : nextAgentStep s = l) :
    step s = .next (if enabled l s = true then performed l (advance s) else advance s) := by
  rw [step_eq, h]

/-- Settles O5. -/
theorem dCommitAppliesTheDeltaTable : Obligations.DCommitAppliesTheDeltaTable := by
  intro s h
  simp only [step_of_nextAgentStep h, enabled_dCommit_iff]
  rfl

/-- Settles O18: under R24's invariant, delivery allowed means that nothing runs that would inhibit it. -/
theorem interruptEntrySamplesAndMasks : Obligations.InterruptEntrySamplesAndMasks := by
  refine ⟨fun s h => ?entry, fun s hs he => ?exclusion⟩
  case entry =>
    simp only [step_of_nextAgentStep h, enabled_dEnter_iff]
    rfl
  case exclusion =>
    obtain ⟨-, hinh⟩ := (enabled_dEnter_iff s).mp he
    exact idle_outside_of_inh_false hs hinh

/-! ### Through a handler run (R70, R90) -/

theorem committedDeltas_succ_eq_nil_iff (k : Nat) (s : State) :
    committedDeltas (k + 1) s = [] ↔ happens .dCommit s = false ∧ committedDeltas k (stepState s) = [] := by
  simp [committedDeltas]

/-- What every step but a commit keeps holds up to the next commit. -/
theorem after_of_no_commit {P : State → Prop}
    (hstep : ∀ s, P s → happens .dCommit s = false → P (stepState s)) (k : Nat) {s : State} (hs : P s)
    (hnc : committedDeltas k s = []) : P (after k s) := by
  induction k generalizing s with
  | zero => exact hs
  | succ k ih =>
    obtain ⟨hnow, hlater⟩ := (committedDeltas_succ_eq_nil_iff k s).mp hnc
    exact ih (hstep s hs hnow) hlater

theorem stepState_of_dEnter {s : State} (h : happens .dEnter s = true) :
    stepState s = interruptEntry (advance s) := stepState_of_happens h

theorem stepState_dphase_active {s : State} (hact : s.dphase = .active) (hnc : happens .dCommit s = false) :
    (stepState s).dphase = .active := by
  obtain heq | henter | hcommit := stepState_dphase_eq_or s
  · rw [heq, hact]
  · rw [stepState_of_dEnter henter]; rfl
  · rw [hnc] at hcommit; cases hcommit

/-- Settles O22: of the two steps that write `DPHASE`, `D_ENTER` leaves the handler active. -/
theorem handlerEndsOnlyByItsCommit : Obligations.HandlerEndsOnlyByItsCommit := by
  intro s k hact hnc
  have hact' : (after k s).dphase = .active :=
    after_of_no_commit (P := fun s => s.dphase = .active) (fun _ => stepState_dphase_active) k hact hnc
  exact ⟨hact', (enabled_dCommit_iff _).mpr hact'⟩

/-- The handler is running, as R24 has it, with the sample `p`. -/
def State.handling (p : PinState) (s : State) : Prop := s.inhibitScoped ∧ s.dphase = .active ∧ s.cur = p

theorem stepState_handling_of_dEnter {s : State} (hs : s.inhibitScoped) (h : happens .dEnter s = true) :
    (stepState s).handling s.pins :=
  ⟨stepKeepsInhibitScoped s _ hs (step_eq_stepState s), by rw [stepState_of_dEnter h]; rfl,
    by rw [stepState_cur, if_pos h]⟩

/-- Under R24 a running handler is not entered again, and only an entry would write the sample. -/
theorem stepState_handling {p : PinState} {s : State} (hs : s.handling p) (hnc : happens .dCommit s = false) :
    (stepState s).handling p := by
  obtain ⟨hscoped, hact, hcur⟩ := hs
  have ⟨hinh_iff, _⟩ := hscoped
  have hinh : s.inh = true := hinh_iff.mpr (.inl hact)
  have hne : happens .dEnter s = false := happens_eq_false_of_not_enabled (by simp [enabled, deliverable, hinh])
  exact ⟨stepKeepsInhibitScoped s _ hscoped (step_eq_stepState s), stepState_dphase_active hact hnc,
    by simpa [stepState_cur, hne] using hcur⟩

/-- Settles O21: the sample of the entry is still in `CUR` when the commit writes it to `PREV`. -/
theorem prevIsTheSampleOfTheRun : Obligations.PrevIsTheSampleOfTheRun := by
  intro s k hs henter hnc hcommit
  obtain ⟨-, -, hcur⟩ : (after k (stepState s)).handling s.pins :=
    after_of_no_commit (fun _ => stepState_handling) k (stepState_handling_of_dEnter hs henter) hnc
  rw [stepState_prev, if_pos hcommit, hcur]

/-! ### The counting law (R94) -/

theorem mem_committedDeltas {k : Nat} {s : State} {x : Int} (h : x ∈ committedDeltas k s) :
    x = 1 ∨ x = -1 ∨ x = 0 := by
  induction k generalizing s with
  | zero => simp [committedDeltas] at h
  | succ k ih =>
    rw [committedDeltas, List.mem_append] at h
    obtain hnow | hlater := h
    · split at hnow
      · rw [List.mem_singleton.mp hnow]; exact delta_trichotomy s.prev s.cur
      · cases hnow
    · exact ih hlater

/-- A sum of ones, minus ones and zeros counts the ones and the minus ones. -/
theorem sum_eq_count_sub_count {l : List Int} (h : ∀ x ∈ l, x = 1 ∨ x = -1 ∨ x = 0) :
    l.sum = (l.count 1 : Int) - (l.count (-1) : Int) := by
  induction l with
  | nil => rfl
  | cons x l ih =>
    obtain ⟨hx, hl⟩ := List.forall_mem_cons.mp h
    have := ih hl
    rcases hx with rfl | rfl | rfl <;> simp <;> omega

/-- With no take on the way, `COUNT` gains the sum of the committed deltas in 16 bits. -/
theorem after_count_of_no_take {k : Nat} {s : State} (hnt : takenValues k s = []) :
    (after k s).count = s.count + sext16 (committedDeltas k s).sum := by
  have hrun := after_count_modEq k s
  simp only [takenSum, hnt, List.map_nil, List.sum_nil, sub_zero] at hrun
  have hadd := add_sext16_modEq s.count (committedDeltas k s).sum
  apply BitVec.eq_of_toNat_eq
  have h := hrun.trans hadd.symm
  rw [Int.ModEq] at h
  omega

theorem sext16_natCast_sub (m n : Nat) : sext16 (m - n) = BitVec.ofNat 16 m - BitVec.ofNat 16 n := by
  rw [sub_eq_add_neg, sext16_add, sext16, sext16, BitVec.ofInt_neg, BitVec.ofInt_natCast, BitVec.ofInt_natCast,
    BitVec.sub_eq_add_neg]

/-- Settles O41: every committed delta is 1, -1 or 0. -/
theorem countingLaw : Obligations.CountingLaw := by
  intro s k hnt
  rw [after_count_of_no_take hnt, sum_eq_count_sub_count fun _ => mem_committedDeltas, sext16_natCast_sub,
    BitVec.sub_eq_add_neg, BitVec.sub_eq_add_neg, BitVec.add_assoc]

/-! ### Served level changes (R61, R93, R95 in a run) -/

/-- A level change can be served at once (R61): delivery is allowed, the handler idle, and the newest level recorded. -/
def State.settled (s : State) : Prop := s.inh = false ∧ s.dphase = .idle ∧ s.prev = s.pins

/-- The state after the change to `v` and the handler run it triggers. -/
def State.edgeServed (s : State) (v : PinState) : State :=
  { s with
    pins := v, prev := v, cur := v, count := s.count + sext16 (delta s.pins v), pend := false, turn := s.turn + 3 }

theorem edgeServed_settled {s : State} (hs : s.settled) (v : PinState) : (s.edgeServed v).settled := by
  obtain ⟨hinh, hidle, -⟩ := hs
  exact ⟨hinh, hidle, rfl⟩

/-- A trace that begins with a served change runs on from the state that the change leaves. -/
theorem after_edge {s : State} (hs : s.settled) {v : PinState} (hv : v ≠ s.pins) (k : Nat) (tr : List AgentStep) :
    after (3 + k) { s with trace := pseudoEdge v ++ tr } = after k { s.edgeServed v with trace := tr } := by
  obtain ⟨hinh, hidle, hprev⟩ := hs
  rw [after_add, after_pseudoEdge (s := { s with trace := pseudoEdge v ++ tr }) rfl hinh hidle hprev hv]
  rfl

/-- Settles O53: the four levels are a cycle, each is served, and the four equal deltas add up. -/
theorem servedFullCycleCountsFour : Obligations.ServedFullCycleCountsFour := by
  intro s b c d e tr x hx hinh hidle hprev hb hc hd he
  have hx0 : x ≠ 0 := by omega
  have hback : e = s.pins := eq_of_four_equal_deltas hx0 hb hc hd he
  refine ⟨hback, ?_⟩
  have hs : s.settled := ⟨hinh, hidle, hprev⟩
  have hs₁ := edgeServed_settled hs b
  have hs₂ := edgeServed_settled hs₁ c
  have hs₃ := edgeServed_settled hs₂ d
  have hne {p q : PinState} (h : delta p q = x) : q ≠ p := ne_of_delta_ne_zero (h ▸ hx0)
  calc after 12 { s with trace := pseudoEdge b ++ pseudoEdge c ++ pseudoEdge d ++ pseudoEdge e ++ tr }
    _ = after (3 + (3 + (3 + (3 + 0))))
          { s with trace := pseudoEdge b ++ (pseudoEdge c ++ (pseudoEdge d ++ (pseudoEdge e ++ tr))) } := by
        simp only [List.append_assoc]
    _ = { (((s.edgeServed b).edgeServed c).edgeServed d).edgeServed e with trace := tr } := by
        rw [after_edge hs (hne hb), after_edge hs₁ (hne hc), after_edge hs₂ (hne hd), after_edge hs₃ (hne he)]
        rfl
    _ = _ := by
        simp only [State.edgeServed, hb, hc, hd, he, add_four_sext16]
        rw [hback, hprev]

/-- The state after the lines left their level and came back, both changes served. -/
def State.bounceServed (s : State) : State := { s with cur := s.pins, pend := false, turn := s.turn + 6 }

theorem bounceServed_settled {s : State} (hs : s.settled) : s.bounceServed.settled := hs

/-- The change and the change back: the two deltas cancel. -/
theorem edgeServed_edgeServed_back {s : State} (hs : s.settled) (b : PinState) :
    (s.edgeServed b).edgeServed s.pins = s.bounceServed := by
  obtain ⟨-, -, hprev⟩ := hs
  simp only [State.edgeServed, State.bounceServed, add_sext16_delta_back]
  rw [← hprev]

theorem after_bounce {s : State} (hs : s.settled) {b : PinState} (hb : b ≠ s.pins) (k : Nat) (tr : List AgentStep) :
    after (6 + k) { s with trace := pseudoEdge b ++ pseudoEdge s.pins ++ tr } =
      after k { s.bounceServed with trace := tr } := by
  calc after (6 + k) { s with trace := pseudoEdge b ++ pseudoEdge s.pins ++ tr }
    _ = after (3 + (3 + k)) { s with trace := pseudoEdge b ++ (pseudoEdge s.pins ++ tr) } := by
        rw [List.append_assoc, ← Nat.add_assoc]
    _ = after k { (s.edgeServed b).edgeServed s.pins with trace := tr } := by
        rw [after_edge hs hb, after_edge (edgeServed_settled hs b) hb.symm]
    _ = _ := by rw [edgeServed_edgeServed_back hs]

/-- Settles O54, by induction on the number of bounces: each ends settled on the level it began with. -/
theorem servedBouncesCancel : Obligations.ServedBouncesCancel := by
  intro s b tr n hinh hidle hprev hb
  have hs : s.settled := ⟨hinh, hidle, hprev⟩
  clear hinh hidle hprev
  induction n generalizing s with
  | zero => simpa [State.bounceServed] using after_bounce hs hb 0 tr
  | succ n ih =>
    have hsteps : 6 * (n + 1 + 1) = 6 + 6 * (n + 1) := by omega
    rw [hsteps, List.replicate_succ, List.flatten_cons, List.append_assoc, after_bounce hs hb]
    refine (ih s.bounceServed hb (bounceServed_settled hs)).trans ?_
    simp only [State.bounceServed, Nat.add_assoc]

end Sys2Proof.Machine

/-! SUPPORT. The statements of 41_counter_register: the counter operations unsigned and signed, with their wrap points
(R101 to R103, R105, R106), the three steps of the critical section (R107 to R109), and repeated takes (R111). -/

namespace Sys2Proof.Machine

/-! ### The counter operations modulo 65536 (R101 to R103) -/

/-- The codes of class INC (R56) are those whose delta is 1. -/
theorem delta_eq_one_iff_code : ∀ p c : PinState,
    delta p c = 1 ↔ transCode p c ∈ [0x2#4, 0x4#4, 0xB#4, 0xD#4] := by decide

theorem delta_eq_neg_one_iff_code : ∀ p c : PinState,
    delta p c = -1 ↔ transCode p c ∈ [0x1#4, 0x7#4, 0x8#4, 0xE#4] := by decide

/-- The codes of the two classes HOLD and SKIP are those whose delta is 0. -/
theorem delta_eq_zero_iff_code : ∀ p c : PinState,
    delta p c = 0 ↔ transCode p c ∈ [0x0#4, 0x3#4, 0x5#4, 0x6#4, 0x9#4, 0xA#4, 0xC#4, 0xF#4] := by decide

theorem exec_decodeTrans_count {s : State} {d : Int} (h : delta s.prev s.cur = d) :
    ∃ t, exec (decodeTrans (transCode s.prev s.cur)) s = .next t ∧ t.count = s.count + sext16 d :=
  ⟨_, exec_decodeTrans s.prev s.cur s, by rw [h]⟩

/-- Settles O7: the class of a code is its delta, and adding the delta is the class's counter operation. -/
theorem counterOperationsWrap : Obligations.CounterOperationsWrap := by
  refine ⟨?inc, ?dec, ?hold, by decide, by decide, by decide, by decide⟩
  case inc =>
    rintro _ hcode s - rfl
    obtain ⟨t, hexec, hcount⟩ := exec_decodeTrans_count ((delta_eq_one_iff_code _ _).mpr hcode)
    exact ⟨t, hexec, by rw [hcount, ← cntInc_eq_add_sext16, cntInc_toNat]⟩
  case dec =>
    rintro _ hcode s - rfl
    obtain ⟨t, hexec, hcount⟩ := exec_decodeTrans_count ((delta_eq_neg_one_iff_code _ _).mpr hcode)
    exact ⟨t, hexec, by rw [hcount, ← cntDec_eq_add_sext16, cntDec_toNat]⟩
  case hold =>
    rintro _ hcode s - rfl
    obtain ⟨t, hexec, hcount⟩ := exec_decodeTrans_count ((delta_eq_zero_iff_code _ _).mpr hcode)
    exact ⟨t, hexec, by rw [hcount, ← cntHold_eq_add_sext16, cntHold_eq]⟩

/-! ### The signed count (R5, R105, R106) -/

/-- The signed reading is the residue modulo 65536 that lies from -32768 up to 32767. -/
theorem sint16_eq_emod (c : Word) : sint16 c = ((c.toNat : Int) + 32768) % 65536 - 32768 := by
  rw [sint16]
  split <;> omega

theorem sint16_cntInc (c : Word) : sint16 (cntInc c) = if sint16 c = 32767 then -32768 else sint16 c + 1 := by
  rw [sint16_eq_emod, sint16_eq_emod, cntInc_toNat]
  split <;> omega

theorem sint16_cntDec (c : Word) : sint16 (cntDec c) = if sint16 c = -32768 then 32767 else sint16 c - 1 := by
  rw [sint16_eq_emod, sint16_eq_emod, cntDec_toNat]
  split <;> omega

theorem cntDec_cntInc (c : Word) : cntDec (cntInc c) = c := by
  rw [cntDec, cntInc, BitVec.add_assoc]
  exact BitVec.add_zero c

theorem cntInc_cntDec (c : Word) : cntInc (cntDec c) = c := by
  rw [cntInc, cntDec, BitVec.add_assoc]
  exact BitVec.add_zero c

/-- Settles O8. -/
theorem signedCountWrapsSilently : Obligations.SignedCountWrapsSilently := fun c =>
  ⟨sint16_cntInc c, sint16_cntDec c, cntDec_cntInc c, cntInc_cntDec c⟩

/-! ### The critical section (R107 to R109) -/

/-- An exchange that is armed with the handler idle is in neither of R24's two scopes of `INH`. -/
theorem inh_false_of_enabled_xMask {s : State} (hs : s.inhibitScoped) (he : enabled .xMask s = true) :
    s.inh = false := by
  obtain ⟨harmed, hidle⟩ := (enabled_xMask_iff s).mp he
  obtain ⟨hinh, -⟩ := hs
  simpa [hidle, harmed, State.inCritical] using hinh

/-- With the handler idle a level change always leaves a trigger, whatever `INH` is (R142). -/
theorem stepState_pend_of_ePin {s : State} {v : PinState} (hidle : s.dphase = .idle)
    (h : happens (.ePin v) s = true) : (stepState s).pend = true := by
  rw [stepState_of_happens h]
  simp [performed, pinChange, hidle]

/-- A trigger that waited for the end of the critical section can be delivered at once. -/
theorem enabled_dEnter_of_xUnmask {s : State} (h : happens .xUnmask s = true) (hpend : s.pend = true) :
    enabled .dEnter (stepState s) = true := by
  rw [stepState_of_happens h]
  exact (enabled_dEnter_iff _).mpr ⟨hpend, rfl⟩

/-- Settles O9: each step by its enabling condition; in the section delivery is inhibited and the handler idle. -/
theorem criticalSectionSteps : Obligations.CriticalSectionSteps := by
  refine ⟨fun s h => ?mask, fun s h => ?take, fun s h => ?unmask, fun s hs => ?inv,
    fun _ => enabled_dEnter_of_xUnmask⟩
  case mask =>
    simp only [step_of_nextAgentStep h, enabled_xMask_iff]
    rfl
  case take =>
    simp only [step_of_nextAgentStep h, enabled_xTake_iff]
    rfl
  case unmask =>
    simp only [step_of_nextAgentStep h, enabled_xUnmask_iff]
    rfl
  case inv =>
    obtain ⟨-, hexcluded⟩ := handlerAndCriticalSectionExclude s hs
    refine ⟨inh_false_of_enabled_xMask hs, fun he => ?_, fun hcrit => hexcluded hcrit .dEnter rfl, fun hcrit v h => ?_⟩
    · exact idle_of_inCritical hs (.inl ((enabled_xTake_iff s).mp he))
    · obtain ⟨-, hidle⟩ := idle_of_inCritical hs hcrit
      exact stepState_pend_of_ePin hidle h

/-! ### Repeated takes (R111) -/

theorem stepState_of_xTake {s : State} (h : happens .xTake s = true) :
    (stepState s).latch = s.count ∧ (stepState s).count = 0x0000#16 := by
  rw [stepState_of_happens h]
  exact ⟨rfl, rfl⟩

/-- Only a commit moves a cleared count. -/
theorem stepState_count_of_cleared {s : State} (h0 : s.count = 0x0000#16) (hnc : happens .dCommit s = false) :
    (stepState s).count = 0x0000#16 := by
  simp [stepState_count, hnc, h0]

/-- Settles O10: the first take clears the count, and with no commit it is still clear at the second. -/
theorem repeatedTakeReturnsZero : Obligations.RepeatedTakeReturnsZero := by
  intro s hfirst
  obtain ⟨hlatch, hcount⟩ := stepState_of_xTake hfirst
  refine ⟨hlatch, hcount, fun k hnc hsecond => ?_⟩
  have hcleared : (after k (stepState s)).count = 0x0000#16 :=
    after_of_no_commit (P := fun t => t.count = 0x0000#16) (fun _ => stepState_count_of_cleared) k hcount hnc
  obtain ⟨hlatch', hcount'⟩ := stepState_of_xTake hsecond
  exact ⟨hlatch'.trans hcleared, hcount'⟩

end Sys2Proof.Machine

/-! SUPPORT. The statements of 42_command_parser: a fetch and what decides on its byte (R121), the two commands (R122,
R123), the frame writes (R124, R125), the transport's two steps (R128, R129), and along a run one take for each
read-command (R126, R127) and one frame for each take (R130). -/

namespace Sys2Proof.Machine

/-! ### A step that happens is the one named next -/

theorem nextAgentStep_of_happens {l : AgentStep} {s : State} (h : happens l s = true) : nextAgentStep s = l := by
  simp only [happens, Bool.and_eq_true, beq_iff_eq] at h
  exact h.1

/-! ### The rows of `IGNORE` (R123) -/

/-- The eight rows of `IGNORE`, with operand `b` where a row has one. -/
def ignoreRows (b : Byte) : List Instr :=
  [.ignore1xxxxxxx b, .ignore00xxxxxx b, .ignore010xxxxx b, .ignore0110xxxx b, .ignore01111xxx b, .ignore011101xx b,
    .ignore0111000x b, .ignore01110011]

theorem exec_of_mem_ignoreRows {i : Instr} {b : Byte} (hi : i ∈ ignoreRows b) (s : State) :
    exec i s = .next (discardByte s) := by
  simp only [ignoreRows, List.mem_cons, List.not_mem_nil, or_false] at hi
  rcases hi with rfl | rfl | rfl | rfl | rfl | rfl | rfl | rfl <;> rfl

/-- Settles O52. -/
theorem ignoreRunsInEveryState : Obligations.IgnoreRunsInEveryState :=
  ⟨fun _ _ => ⟨rfl, rfl, rfl, rfl, rfl, rfl, rfl, rfl⟩, fun _ s hb => exec_decodeCmd_of_ne hb s⟩

/-- At `REST` with a byte waiting, discarding it shortens `RXQ` and nothing more. -/
theorem discardByte_of_rest {s : State} {b : Byte} {q : List Byte} (hrest : s.xphase = .rest) (hq : s.rxq = b :: q) :
    discardByte s = { s with rxq := q } := by
  rw [discardByte_eq, hq, ← hrest, List.tail_cons]

/-- Settles O14. -/
theorem ignoreConsumesAndDoesNothing : Obligations.IgnoreConsumesAndDoesNothing := by
  intro b q s hrest _ hq
  rw [← discardByte_of_rest hrest hq]
  exact ⟨fun _ hi hwf henc => ⟨decodeCmd_of_encode hwf henc, exec_of_mem_ignoreRows hi s⟩,
    fun hb => exec_decodeCmd_of_ne hb s⟩

/-! ### The fetch (R121) -/

/-- Settles O11: a fetch takes the head and goes by it; of the other steps only `E_RX` writes `RXQ`, at its tail. -/
theorem fetchConsumesOneByte : Obligations.FetchConsumesOneByte := by
  refine ⟨fun s h => ?fetch, fun s h => ?other⟩
  case fetch =>
    rw [step_of_nextAgentStep h]
    simp only [enabled_xFetch_iff, ← and_assoc]
    cases hq : s.rxq with
    | nil => simp
    | cons b q => simp [performed, rxPop, hq, fetchPhase]
  case other =>
    obtain heq | hfetch | ⟨b, hrx⟩ := stepState_rxq_eq_or s
    · exact ⟨[], by rw [heq, List.append_nil]⟩
    · exact absurd (nextAgentStep_of_happens hfetch) h
    · exact ⟨[b], by rw [stepState_of_happens hrx]; rfl⟩

/-! ### `READ_RESET` whole (R122) -/

theorem execSeq_readReset_succ {s t : State} (h : execReadReset s = .next t) (n : Nat) :
    execSeq (List.replicate (n + 1) .readReset) s = execSeq (List.replicate n .readReset) t := by
  rw [List.replicate_succ, execSeq, exec_readReset, h]

/-- From `REST` the six meanings are the six steps in order. -/
theorem execSeq_readReset {s : State} (h : s.xphase = .rest) :
    execSeq (List.replicate 6 .readReset) s =
      .next (sendLow (sendHigh (leaveCritical (takeCount (enterCritical (armExchange s)))))) :=
  calc execSeq (List.replicate 6 .readReset) s
    _ = execSeq (List.replicate 5 .readReset) _ := execSeq_readReset_succ (execReadReset_rest h) 5
    _ = execSeq (List.replicate 4 .readReset) _ := execSeq_readReset_succ (execReadReset_armed rfl) 4
    _ = execSeq (List.replicate 3 .readReset) _ := execSeq_readReset_succ (execReadReset_masked rfl) 3
    _ = execSeq (List.replicate 2 .readReset) _ := execSeq_readReset_succ (execReadReset_taken rfl) 2
    _ = execSeq (List.replicate 1 .readReset) _ := execSeq_readReset_succ (execReadReset_sendHi rfl) 1
    _ = execSeq (List.replicate 0 .readReset) _ := execSeq_readReset_succ (execReadReset_sendLo rfl) 0

theorem sendHigh_of_room {s : State} (h : hasRoom s.params.txDepth s.txq = true) :
    sendHigh s = { s with txq := s.txq ++ [frameHi s.latch], xphase := .sendLo } := by
  rw [sendHigh_eq, txPush_txq_of_room h]

theorem sendLow_of_room {s : State} (h : hasRoom s.params.txDepth s.txq = true) :
    sendLow s = { s with txq := s.txq ++ [frameLo s.latch], xphase := .rest } := by
  rw [sendLow_eq, txPush_txq_of_room h]

theorem hasRoom_of_unbounded {s : State} (h : s.params.txDepth = none) (q : List Byte) :
    hasRoom s.params.txDepth q = true := by
  rw [h, hasRoom_none]

/-- Settles O12: the take latches the count, and both pushes find room. -/
theorem readResetSendsAndClears : Obligations.ReadResetSendsAndClears := by
  refine ⟨decodeCmd_read, fun s q hrest hq hdepth => ?_⟩
  have hroom := hasRoom_of_unbounded hdepth
  rw [execSeq_readReset hrest, sendHigh_of_room, sendLow_of_room]
  · simp [leaveCritical, takeCount_eq, enterCritical, armExchange_eq, hq]
  · exact hroom _
  · exact hroom _

/-! ### The frame writes (R124, R125) -/

/-- The decoder's steps do not touch the frame, nor the exchange agent's phase. -/
theorem stepState_of_decoder {s : State} (h : (nextAgentStep s).agent = .decoder) :
    (stepState s).latch = s.latch ∧ (stepState s).xphase = s.xphase ∧ (stepState s).txq = s.txq := by
  obtain ⟨l, rfl, -, -, hs, -⟩ | ⟨-, hs⟩ := turn_cases s
  · rw [hs]
    cases hl : nextAgentStep s with
    | dEnter | dCommit => exact ⟨rfl, rfl, rfl⟩
    | ePin | eRx | eTx | xFetch | xMask | xTake | xUnmask | xSendHi | xSendLo => simp [hl, AgentStep.agent] at h
  · rw [hs]
    exact ⟨rfl, rfl, rfl⟩

/-- Settles O15. -/
theorem frameWritesPushHighThenLow : Obligations.FrameWritesPushHighThenLow := by
  refine ⟨fun s hroom => ⟨fun h => ?high, fun h => ?low⟩, fun _ => stepState_of_decoder⟩
  case high =>
    simp only [step_of_nextAgentStep h, enabled_xSendHi_iff]
    rw [performed, sendHigh_of_room (s := advance s) hroom]
    rfl
  case low =>
    simp only [step_of_nextAgentStep h, enabled_xSendLo_iff]
    rw [performed, sendLow_of_room (s := advance s) hroom]
    rfl

/-! ### The transport (R128, R129) -/

/-- Settles O17. -/
theorem transportStepsAreFifo : Obligations.TransportStepsAreFifo := by
  refine ⟨fun s b h => step_of_nextAgentStep h, fun s h => ?deliver⟩
  rw [step_of_nextAgentStep h]
  cases hq : s.txq with
  | nil => simp [enabled, hq]
  | cons o q =>
    have hq' : (advance s).txq = o :: q := hq
    simp [enabled, hq, performed, deliverByte_of_cons hq']

/-! ### One take for each read-command (R126, R127) -/

theorem takenValues_succ (k : Nat) (s : State) :
    takenValues (k + 1) s = takenValues 1 s ++ takenValues k (stepState s) := by
  simp [takenValues]

theorem takenValues_one (s : State) : takenValues 1 s = if happens .xTake s then [s.count] else [] := by
  simp [takenValues]

/-- A fetch from a queue that holds a byte arms the exchange once if that byte is the read-command. -/
theorem untaken_fetched (s : State) : untaken (performed .xFetch s) = (s.rxq.take 1).count 0x72#8 := by
  cases hq : s.rxq with
  | nil => simp [untaken, performed, hq]
  | cons b q =>
    by_cases hb : b = 0x72#8
    · simp [untaken, performed, hq, hb]
    · simp [untaken, performed, hq, fetchPhase_of_ne hb, hb]

/-- `untaken` reads `XPHASE` alone. -/
theorem untaken_of_xphase_eq {s t : State} (h : t.xphase = s.xphase) : untaken t = untaken s := by
  rw [untaken, untaken, h]

/-- In one turn a read-command consumed is one more exchange to be taken, and a take is one less. -/
theorem stepState_untaken (s : State) :
    (takenValues 1 s).length + untaken (stepState s) = (fetchedBytes 1 s).count 0x72#8 + untaken s := by
  rw [takenValues_one, fetchedBytes_one]
  obtain ⟨l, -, h, he, hs, hne⟩ | ⟨hne, hs⟩ := turn_cases s
  · rw [hs]
    cases l with
    | xFetch =>
      obtain ⟨hrest, -, -⟩ := (enabled_xFetch_iff s).mp he
      rw [untaken_fetched]
      simp [h, hne, untaken, hrest]
    | xTake => simp [h, hne, performed, untaken, (enabled_xTake_iff s).mp he]
    | xMask =>
      obtain ⟨harmed, -⟩ := (enabled_xMask_iff s).mp he
      simp [hne, performed, untaken, harmed]
    | xUnmask => simp [hne, performed, untaken, (enabled_xUnmask_iff s).mp he]
    | xSendHi =>
      obtain ⟨hhigh, -⟩ := (enabled_xSendHi_iff s).mp he
      simp [hne, performed, untaken, hhigh]
    | xSendLo =>
      obtain ⟨hlow, -⟩ := (enabled_xSendLo_iff s).mp he
      simp [hne, performed, untaken, hlow]
    | ePin | eRx | eTx | dEnter | dCommit =>
      simpa [hne] using untaken_of_xphase_eq (by simp [performed])
  · simpa [hne] using untaken_of_xphase_eq (by rw [hs]; rfl)

/-- Settles O45, by induction on the steps. -/
theorem oneTakePerReadCommand : Obligations.OneTakePerReadCommand := by
  intro s k
  induction k generalizing s with
  | zero => simp [takenValues, fetchedBytes]
  | succ k ih =>
    rw [takenValues_succ, fetchedBytes_succ, after_succ, List.length_append, List.count_append]
    have hrest := ih (stepState s)
    have hstep := stepState_untaken s
    omega

/-! ### One frame for each take (R32, R33, R130) -/

/-- What has left the block, what waits in `TXQ` and what is still owed of the current frame, oldest byte first. -/
def State.outbound (s : State) : List Byte := s.delivered ++ s.txq ++ owedBytes s

/-- `owedBytes` reads `XPHASE` and `LATCH` alone. -/
theorem owedBytes_of_eq {s t : State} (hx : t.xphase = s.xphase) (hl : t.latch = s.latch) :
    owedBytes t = owedBytes s := by
  rw [owedBytes, owedBytes, hx, hl]

/-- A delivery moves the oldest byte of `TXQ` to the observation. -/
theorem deliverByte_outbound (s : State) : (deliverByte s).outbound = s.outbound := by
  have howed : owedBytes (deliverByte s) = owedBytes s := owedBytes_of_eq (deliverByte_xphase s) (deliverByte_latch s)
  have hmove : s.txq.take 1 ++ s.txq.tail = s.txq := by simpa using List.take_append_drop 1 s.txq
  rw [State.outbound, State.outbound, howed, deliverByte_delivered, deliverByte_txq, List.append_assoc s.delivered,
    hmove]

/-- A take makes the frame of the count owed; every other enabled step leaves the outbound bytes as they are, a frame
write moving the byte it owes to `TXQ`. -/
theorem performed_outbound {l : AgentStep} {s : State} (he : enabled l s = true)
    (hroom : l = .xSendHi ∨ l = .xSendLo → hasRoom s.params.txDepth s.txq = true) :
    (performed l s).outbound = s.outbound ++ if l = .xTake then frameBytes s.count else [] := by
  cases l with
  | ePin | eRx | dEnter | dCommit => exact (List.append_nil _).symm
  | eTx => exact (deliverByte_outbound s).trans (List.append_nil _).symm
  | xFetch =>
    obtain ⟨hrest, -, -⟩ := (enabled_xFetch_iff s).mp he
    obtain hphase | hphase := fetchPhase_cases s.rxq <;>
      simp [State.outbound, performed, owedBytes, hrest, hphase]
  | xMask =>
    obtain ⟨harmed, -⟩ := (enabled_xMask_iff s).mp he
    simp [State.outbound, performed, owedBytes, harmed]
  | xTake => simp [State.outbound, performed, owedBytes, (enabled_xTake_iff s).mp he]
  | xUnmask => simp [State.outbound, performed, owedBytes, (enabled_xUnmask_iff s).mp he]
  | xSendHi =>
    obtain ⟨hhigh, -⟩ := (enabled_xSendHi_iff s).mp he
    simp [State.outbound, performed, sendHigh_of_room (hroom (.inl rfl)), owedBytes, hhigh, frameBytes]
  | xSendLo =>
    obtain ⟨hlow, -⟩ := (enabled_xSendLo_iff s).mp he
    simp [State.outbound, performed, sendLow_of_room (hroom (.inr rfl)), owedBytes, hlow]

/-- Settles O49, by the two cases of a turn. -/
theorem stepAddsOneFramePerTake : Obligations.StepAddsOneFramePerTake := by
  intro s t h hroom
  obtain rfl := eq_stepState_of_step h
  obtain ⟨l, -, hl, he, hs, hne⟩ | ⟨hne, hs⟩ := turn_cases s
  · have hroom' : l = .xSendHi ∨ l = .xSendLo → hasRoom s.params.txDepth s.txq = true := by
      rintro (rfl | rfl)
      · exact hroom (.inl hl)
      · exact hroom (.inr hl)
    have htake : happens .xTake s = decide (l = .xTake) := by
      by_cases hx : l = .xTake
      · simpa [hx] using hl
      · simp [hx, hne .xTake (Ne.symm hx)]
    simp only [hs, htake, decide_eq_true_eq]
    exact performed_outbound (s := advance s) (by simpa using he) hroom'
  · rw [hs, hne]
    exact (List.append_nil _).symm

theorem stepState_outbound_of_unbounded {s : State} (h : s.params.txDepth = none) :
    (stepState s).outbound = s.outbound ++ (takenValues 1 s).flatMap frameBytes := by
  have hstep := stepAddsOneFramePerTake s _ (step_eq_stepState s) fun _ => hasRoom_of_unbounded h s.txq
  rw [State.outbound, hstep, takenValues_one]
  split <;> simp [State.outbound]

theorem after_outbound_of_unbounded (k : Nat) {s : State} (h : s.params.txDepth = none) :
    (after k s).outbound = s.outbound ++ (takenValues k s).flatMap frameBytes := by
  induction k generalizing s with
  | zero => simp [takenValues]
  | succ k ih =>
    have h' : (stepState s).params.txDepth = none := by rw [stepState_params, h]
    rw [after_succ, ih h', stepState_outbound_of_unbounded h, List.append_assoc, ← List.flatMap_append,
      ← takenValues_succ]

/-- Settles O44: after `RESET(p)` nothing is outbound. -/
theorem outboundBytesAreTheTakenFrames : Obligations.OutboundBytesAreTheTakenFrames :=
  ⟨fun _ k h => after_outbound_of_unbounded k h, fun _ _ _ _ _ k h => after_outbound_of_unbounded k h⟩

end Sys2Proof.Machine

/-! SUPPORT. The statements of 60_exceptions: a level change and the trigger (R142, R143), which steps mask and unmask
delivery and what a masked trigger does (R144), and what the policy `latch` keeps of the newest sample. -/

namespace Sys2Proof.Machine

/-! ### A level change (R142, R143) -/

theorem enabled_ePin_iff (v : PinState) (s : State) : enabled (.ePin v) s = true ↔ v ≠ s.pins := by simp [enabled]

theorem drawMaskedLatch_of_latch {s : State} (h : s.params.maskedEdgePolicy = .latch) : drawMaskedLatch s = true := by
  rw [drawMaskedLatch, h, maskedLatch_latch]

theorem drawMaskedLatch_of_drop {s : State} (h : s.params.maskedEdgePolicy = .drop) : drawMaskedLatch s = false := by
  rw [drawMaskedLatch, h, maskedLatch_drop]

theorem pendAfterChange_eq_ite (d : DPhase) (p m : Bool) :
    pendAfterChange d p m = if d = .active then p || m else true := by
  cases d <;> rfl

/-- Settles O19: the bit is the draw of `masked_latch`, which the two fixed policies decide. -/
theorem levelChangeLatchesTheTrigger : Obligations.LevelChangeLatchesTheTrigger := by
  intro s v h
  refine ⟨drawMaskedLatch (advance s), drawMaskedLatch_of_latch (s := advance s),
    drawMaskedLatch_of_drop (s := advance s), ?_⟩
  rw [step_of_nextAgentStep h, ← pendAfterChange_eq_ite]
  simp only [enabled_ePin_iff, ite_not]
  rfl

/-! ### Masking of delivery (R144) -/

/-- Of the four steps that write `INH`, entry and `X_MASK` are the ones that set it. -/
theorem inh_set_only_by_owners {s : State} (h0 : s.inh = false) (h1 : (stepState s).inh = true) :
    happens .dEnter s = true ∨ happens .xMask s = true := by
  obtain heq | henter | hcommit | hmask | hunmask := stepState_inh_eq_or s
  · simp [heq, h0] at h1
  · exact .inl henter
  · simp [stepState_of_happens hcommit, performed] at h1
  · exact .inr hmask
  · simp [stepState_of_happens hunmask, performed] at h1

/-- Of the four steps that write `INH`, the return and `X_UNMASK` are the ones that clear it. -/
theorem inh_cleared_only_by_owners {s : State} (h1 : s.inh = true) (h0 : (stepState s).inh = false) :
    happens .dCommit s = true ∨ happens .xUnmask s = true := by
  obtain heq | henter | hcommit | hmask | hunmask := stepState_inh_eq_or s
  · simp [heq, h1] at h0
  · simp [stepState_of_happens henter, performed] at h0
  · exact .inl hcommit
  · simp [stepState_of_happens hmask, performed] at h0
  · exact .inr hunmask

/-- A pending trigger outlasts every step but its delivery: of the two steps that write `PEND`, a level change only
ever adds to it. -/
theorem stepState_pend_of_no_dEnter {s : State} (hpend : s.pend = true) (hne : happens .dEnter s = false) :
    (stepState s).pend = true := by
  obtain heq | henter | ⟨v, hpin⟩ := stepState_pend_eq_or s
  · rw [heq, hpend]
  · rw [hne] at henter; cases henter
  · rw [stepState_of_happens hpin]; simp [performed, pinChange, hpend]

theorem inh_false_of_dEnter {s : State} (h : happens .dEnter s = true) : s.inh = false := by
  obtain ⟨-, hinh⟩ := (enabled_dEnter_iff s).mp (enabled_of_happens h)
  exact hinh

/-- Settles O20: the owners of `INH` by the values they write; a trigger is lost to its delivery alone, which masking
rules out. -/
theorem deliveryIsMaskedOnlyByItsOwners : Obligations.DeliveryIsMaskedOnlyByItsOwners := by
  intro s t h
  obtain rfl := eq_stepState_of_step h
  refine ⟨inh_set_only_by_owners, inh_cleared_only_by_owners, fun hinh hpend => ?waits, fun hpend hlost => ?lost⟩
  case waits =>
    have hne : happens .dEnter s = false := Bool.eq_false_iff.mpr fun henter => by
      simp [inh_false_of_dEnter henter] at hinh
    exact stepState_pend_of_no_dEnter hpend hne
  case lost =>
    have henter : happens .dEnter s = true := by
      by_contra hne
      simp [stepState_pend_of_no_dEnter hpend (by simpa using hne)] at hlost
    exact ⟨henter, inh_false_of_dEnter henter⟩

/-! ### The newest sample under the policy `latch` (R142, R143) -/

/-- Under `latch` a level change leaves a trigger whether or not the handler runs. -/
theorem performed_ePin_pend_of_latch {v : PinState} {s : State} (h : s.params.maskedEdgePolicy = .latch) :
    (performed (.ePin v) s).pend = true := by
  simp [performed, pinChange, pendAfterChange_eq_ite, drawMaskedLatch_of_latch h]

/-- An enabled step keeps the newest sample: a level change leaves a trigger, an entry samples the lines, a commit
passes the handler's sample on to `PREV`, and no other step touches what the invariant reads. -/
theorem performed_newestSampled {l : AgentStep} {s : State} (hlatch : s.params.maskedEdgePolicy = .latch)
    (he : enabled l s = true) (hs : s.newestSampled) : (performed l s).newestSampled := by
  cases l with
  | ePin v =>
    intro hpend
    rw [performed_ePin_pend_of_latch hlatch] at hpend; cases hpend
  | dEnter => exact fun _ => ⟨nofun, fun _ => rfl⟩
  | dCommit =>
    intro hpend
    obtain ⟨-, hcur⟩ := hs hpend
    exact ⟨fun _ => hcur ((enabled_dCommit_iff s).mp he), nofun⟩
  | eTx | xSendHi | xSendLo => simpa [performed, State.newestSampled] using hs
  | eRx | xFetch | xMask | xTake | xUnmask => exact hs

/-- Settles O27, by the inversion of a step. -/
theorem latchPolicyKeepsNewestSample : Obligations.LatchPolicyKeepsNewestSample := by
  intro s t hlatch hs h
  have hadv : (advance s).newestSampled := hs
  refine ⟨?sampled, by rw [eq_stepState_of_step h, stepState_params, hlatch]⟩
  obtain ⟨he, rfl⟩ | ⟨-, rfl⟩ := step_cases h
  · exact performed_newestSampled hlatch (by simpa using he) hadv
  · exact hadv

end Sys2Proof.Machine

/-! SUPPORT. The statements of 70_reset_and_hazards: quiescence and what is left to do (R173), and what two level
changes count when they are served one by one and when they are merged in `PEND` (R174, R182). -/

namespace Sys2Proof.Machine

/-! ### Quiescence (R173) -/

/-- Outside `REST` each phase has its step, which waits for nothing but the handler. -/
theorem exists_exchange_step_enabled {s : State} (hidle : s.dphase = .idle) (hx : s.xphase ≠ .rest) :
    ∃ l : AgentStep, l.agent = .exchange ∧ enabled l s = true := by
  cases h : s.xphase with
  | rest => exact absurd h hx
  | armed => exact ⟨.xMask, rfl, (enabled_xMask_iff s).mpr ⟨h, hidle⟩⟩
  | masked => exact ⟨.xTake, rfl, (enabled_xTake_iff s).mpr h⟩
  | taken => exact ⟨.xUnmask, rfl, (enabled_xUnmask_iff s).mpr h⟩
  | sendHi => exact ⟨.xSendHi, rfl, (enabled_xSendHi_iff s).mpr ⟨h, hidle⟩⟩
  | sendLo => exact ⟨.xSendLo, rfl, (enabled_xSendLo_iff s).mpr ⟨h, hidle⟩⟩

/-- With the handler idle and the exchange agent in `REST`, R24 has delivery allowed. -/
theorem inh_false_of_idle_rest {s : State} (hs : s.inhibitScoped) (hidle : s.dphase = .idle)
    (hrest : s.xphase = .rest) : s.inh = false := by
  obtain ⟨hinh, -⟩ := hs
  simpa [hidle, State.inCritical, hrest] using hinh

/-- Where no internal step is enabled, the decoder and the exchange agent are at rest with nothing waiting for them:
`D_COMMIT` would end a running handler, the steps of `READ_RESET` an exchange, `X_FETCH` would take a byte, and
`D_ENTER` a pending trigger, which R24 leaves uninhibited. -/
theorem at_rest_of_no_internal_step {s : State} (hs : s.inhibitScoped)
    (hno : ∀ l : AgentStep, l.agent ≠ .environment → enabled l s = false) :
    s.dphase = .idle ∧ s.xphase = .rest ∧ s.pend = false ∧ s.rxq = [] := by
  have hnot {l : AgentStep} (hl : l.agent ≠ .environment) : ¬ enabled l s = true := by simp [hno l hl]
  have hidle : s.dphase = .idle := by
    cases hd : s.dphase with
    | idle => rfl
    | active => exact absurd ((enabled_dCommit_iff s).mpr hd) (hnot (by decide))
  have hrest : s.xphase = .rest := by
    by_contra hx
    obtain ⟨l, hl, he⟩ := exists_exchange_step_enabled hidle hx
    exact hnot (by simp [hl]) he
  have hinh : s.inh = false := inh_false_of_idle_rest hs hidle hrest
  have hpend : s.pend = false :=
    Bool.eq_false_iff.mpr fun hp => hnot (by decide) ((enabled_dEnter_iff s).mpr ⟨hp, hinh⟩)
  have hrxq : s.rxq = [] := by
    by_contra hq
    exact hnot (by decide) ((enabled_xFetch_iff s).mpr ⟨hrest, hidle, hq⟩)
  exact ⟨hidle, hrest, hpend, hrxq⟩

/-- Settles O31. -/
theorem quiescentMeansNothingToDo : Obligations.QuiescentMeansNothingToDo := by
  refine fun s hs => ⟨fun hquiet => ?nothing, fun ⟨hno, htxq⟩ => ?quiet⟩
  case nothing =>
    have ⟨_, _, _, _, htxq⟩ := hquiet
    exact ⟨fun _ hl => not_enabled_of_quiescent hquiet hl, htxq⟩
  case quiet =>
    obtain ⟨hidle, hrest, hpend, hrxq⟩ := at_rest_of_no_internal_step hs hno
    exact ⟨hidle, hrest, hpend, hrxq, htxq⟩

/-! ### Level changes that wait in `PEND` (R174, R182) -/

/-- The state after a change to `v` that waits in `PEND`. -/
def State.levelPending (s : State) (v : PinState) : State := { s with pins := v, pend := true, turn := s.turn + 1 }

/-- The state after a handler run that samples the present level. -/
def State.triggerServed (s : State) : State :=
  { s with
    prev := s.pins, cur := s.pins, count := s.count + sext16 (delta s.prev s.pins), pend := false,
    turn := s.turn + 2 }

/-- With the handler idle a level change leaves the trigger, whether or not one was waiting (R142). -/
theorem stepState_ePin_of_idle {s : State} {v : PinState} (hidle : s.dphase = .idle) (hv : v ≠ s.pins)
    (tr : List AgentStep) :
    stepState { s with trace := .ePin v :: tr } = { s.levelPending v with trace := tr } := by
  have h : happens (.ePin v) { s with trace := .ePin v :: tr } = true := by
    simp [happens, nextAgentStep, enabled, hv]
  rw [stepState_of_happens h]
  simp [performed, pinChange, pendAfterChange, advance, State.levelPending, hidle]

/-- The entry samples the lines and the commit compares the sample with `PREV`: levels that came and went before the
entry have no part in it (R71, R72). -/
theorem after_handlerRun {s : State} (hinh : s.inh = false) (hidle : s.dphase = .idle) (hpend : s.pend = true)
    (tr : List AgentStep) :
    after 2 { s with trace := .dEnter :: .dCommit :: tr } = { s.triggerServed with trace := tr } := by
  have henter : happens .dEnter { s with trace := .dEnter :: .dCommit :: tr } = true := by
    simp [happens, nextAgentStep, enabled, deliverable, hinh, hpend]
  have hcommit : happens .dCommit (interruptEntry (advance { s with trace := .dEnter :: .dCommit :: tr })) = true := rfl
  rw [after_succ, stepState_of_dEnter henter, after_succ, stepState_of_happens hcommit, after_zero]
  simp [performed, recordTransition, interruptReturn, interruptEntry, samplePins, advance, State.triggerServed, hinh,
    hidle]

/-- Two level changes before one handler run: the second is merged with the first, and the run sees the second alone. -/
theorem after_merged {s : State} (hinh : s.inh = false) (hidle : s.dphase = .idle) {b c : PinState} (hb : b ≠ s.pins)
    (hc : c ≠ b) (tr : List AgentStep) :
    after 4 { s with trace := .ePin b :: .ePin c :: .dEnter :: .dCommit :: tr } =
      { ((s.levelPending b).levelPending c).triggerServed with trace := tr } := by
  have hfirst := stepState_ePin_of_idle hidle hb (.ePin c :: .dEnter :: .dCommit :: tr)
  have hsecond := stepState_ePin_of_idle (s := s.levelPending b) hidle hc (.dEnter :: .dCommit :: tr)
  rw [after_succ, hfirst, after_succ, hsecond]
  exact after_handlerRun (s := (s.levelPending b).levelPending c) hinh hidle rfl tr

theorem after_two_edges {s : State} (hs : s.settled) {b c : PinState} (hb : b ≠ s.pins) (hc : c ≠ b) :
    after 6 { s with trace := pseudoEdge b ++ pseudoEdge c } = { (s.edgeServed b).edgeServed c with trace := [] } := by
  have hsecond := after_edge (edgeServed_settled hs b) hc 0 []
  rw [List.append_nil] at hsecond
  exact (after_edge hs hb 3 (pseudoEdge c)).trans hsecond

theorem delta_not : ∀ a : PinState, delta a (~~~a) = 0 := by decide

/-- Two single steps in one direction end on the opposite level, and from there the transition is a double step. -/
theorem delta_eq_zero_of_equal_deltas {a b c : PinState} (h0 : delta a b ≠ 0) (h : delta a b = delta b c) :
    delta a c = 0 := by
  obtain rfl := eq_not_of_delta_eq_delta h0 h
  exact delta_not a

/-- Settles O51: two runs of the handler add the two deltas; one run adds that of the double step, which is 0. -/
theorem changesMergedInPendAreMissed : Obligations.ChangesMergedInPendAreMissed := by
  intro s b c x hx hinh hidle hprev hb hc
  have hx0 : x ≠ 0 := by omega
  have hbne : b ≠ s.pins := ne_of_delta_ne_zero (hb ▸ hx0)
  have hcne : c ≠ b := ne_of_delta_ne_zero (hc ▸ hx0)
  have hskip : delta s.pins c = 0 := delta_eq_zero_of_equal_deltas (hb ▸ hx0) (hb.trans hc.symm)
  refine ⟨?served, ?merged⟩
  case served =>
    rw [after_two_edges ⟨hinh, hidle, hprev⟩ hbne hcne]
    have hcount : s.count + sext16 x + sext16 x = s.count + BitVec.ofInt 16 (2 * x) := by
      rw [two_mul, ← sext16, sext16_add, BitVec.add_assoc]
    exact ⟨by simpa [State.edgeServed, hb, hc] using hcount, rfl, rfl⟩
  case merged =>
    rw [after_merged hinh hidle hbne hcne]
    exact ⟨by simp [State.triggerServed, State.levelPending, hprev, hskip, sext16], rfl, rfl⟩

end Sys2Proof.Machine

/-! SUPPORT. What holds at the start of every run (R24, R4, R26), the decoder over every word of both formats (R58), and
what one step runs: the row decoded from the state (R52, R121, R122), and so a word placed at the host's interface. -/

namespace Sys2Proof.Machine

/-! ### The invariants at reset (R24, R4, R26) -/

theorem fitsDepth_nil (d : Option Nat) : fitsDepth d [] = true := by cases d <;> simp

section
variable (q : Params) (p c : PinState) (l : Word) (tr : List AgentStep)

/-- After `RESET(p)` delivery is allowed, and neither the handler nor the critical section runs. -/
theorem resetAt_inhibitScoped : (State.resetAt q p c l tr).inhibitScoped :=
  inhibitScoped_allowed rfl rfl (by simp [State.inCritical])

theorem resetAt_queuesFit : (State.resetAt q p c l tr).queuesFit :=
  ⟨fitsDepth_nil q.rxDepth, fitsDepth_nil q.txDepth⟩

/-- `RESET(p)` writes the present level to `PREV`; the handler does not run, so `CUR` may hold any value. -/
theorem resetAt_newestSampled : (State.resetAt q p c l tr).newestSampled :=
  fun _ => ⟨fun _ => rfl, fun hact => by simp at hact⟩

end

/-- Settles O24: `State.reset` is the case `p = 00`. -/
theorem resetMeetsTheInvariants : Obligations.ResetMeetsTheInvariants := by
  have hreset (q : Params) (p c : PinState) (l : Word) (tr : List AgentStep) :
      (State.resetAt q p c l tr).inhibitScoped ∧ (State.resetAt q p c l tr).queuesFit ∧
        (State.resetAt q p c l tr).newestSampled :=
    ⟨resetAt_inhibitScoped q p c l tr, resetAt_queuesFit q p c l tr, resetAt_newestSampled q p c l tr⟩
  exact ⟨hreset, hreset Config.defaultParams 0b00#2 0b00#2 0x0000#16 []⟩

/-! ### Every word decodes (R56, R57, R58) -/

/-- Settles O33, by the two decoders: the sixteen codes, and the arms of the command decoder. -/
theorem encodeDecodeRoundTrip : Obligations.EncodeDecodeRoundTrip :=
  decodeCode_wellFormed_and_encode

/-! ### What a step runs (R52, R121, R122) -/

theorem step_of_enabled {s : State} {l : AgentStep} (h : nextAgentStep s = l) (he : enabled l s = true) :
    step s = perform l (advance s) := by
  rw [step, h, takeStep, if_pos (by simpa using he)]

theorem step_of_dCommit {s : State} (h : nextAgentStep s = .dCommit) (hact : s.dphase = .active) :
    step s = exec (decodeTrans (transCode s.prev s.cur)) (advance s) :=
  step_of_enabled h ((enabled_dCommit_iff s).mpr hact)

theorem perform_xFetch_of_cons {s : State} {b : Byte} {q : List Byte} (hq : s.rxq = b :: q) :
    perform .xFetch s = exec (decodeCmd b) s := by
  simp only [perform, hq]

theorem step_of_xFetch {s : State} {b : Byte} {q : List Byte} (h : nextAgentStep s = .xFetch)
    (hrest : s.xphase = .rest) (hidle : s.dphase = .idle) (hq : s.rxq = b :: q) :
    step s = exec (decodeCmd b) (advance s) := by
  have he : enabled .xFetch s = true := (enabled_xFetch_iff s).mpr ⟨hrest, hidle, by simp [hq]⟩
  rw [step_of_enabled h he, perform_xFetch_of_cons (s := advance s) hq]

/-- The five steps that follow the fetch each carry on the `READ_RESET` in progress. -/
theorem perform_readReset_step {l : AgentStep} (hl : l ∈ [AgentStep.xMask, .xTake, .xUnmask, .xSendHi, .xSendLo])
    (s : State) : perform l s = exec .readReset s := by
  cases l with
  | xMask | xTake | xUnmask | xSendHi | xSendLo => rfl
  | ePin | eRx | eTx | dEnter | dCommit | xFetch => simp at hl

/-- Settles O36. -/
theorem stepRunsTheDecodedInstruction : Obligations.StepRunsTheDecodedInstruction := by
  refine fun s => ⟨step_of_dCommit, fun _ _ => step_of_xFetch, fun l hl h he => ?exchange⟩
  case exchange => rw [step_of_enabled h he, perform_readReset_step hl]

/-! ### A word placed at the interface (log entries 5, 9) -/

theorem tableCode_transCode (c : TransCode) : tableCode 4 c.toNat = some (.trans c) := by
  have hlt : c.toNat < 16 := c.isLt
  simp [tableCode, hlt]

theorem tableCode_cmd {b : Byte} (h : 16 ≤ b.toNat) : tableCode 8 b.toNat = some (.cmd b) := by
  have hlt : b.toNat < 256 := b.isLt
  simp [tableCode, hlt, Nat.not_lt.mpr h]

theorem withFetchWord_of_tableCode {n w : Nat} {c : Code} (h : tableCode n w = some c) (s : State) :
    s.withFetchWord n w = placeCode c s := by
  rw [State.withFetchWord, h]

/-- The two halves of a code, as operands, have the code as theirs (R52). -/
theorem transCode_halves (c : TransCode) : transCode (c.extractLsb' 2 2) (c.extractLsb' 0 2) = c := by
  calc transCode (c.extractLsb' 2 2) (c.extractLsb' 0 2)
    _ = c.extractLsb' 0 4 := BitVec.extractLsb'_append_extractLsb'_eq_extractLsb' rfl
    _ = c := BitVec.extractLsb'_eq_self

/-- A placed code meets the condition of the step placed with it: `D_COMMIT` finds it in `PREV : CUR` of a running
handler, `X_FETCH` as the oldest byte at rest. -/
theorem step_placeCode (c : Code) (s : State) :
    step (placeCode c s) = exec (decodeCode c) (advance (placeCode c s)) := by
  cases c with
  | trans c =>
    have hrun := step_of_dCommit (s := placeCode (.trans c) s) rfl rfl
    have hcode : transCode (placeCode (.trans c) s).prev (placeCode (.trans c) s).cur = c := transCode_halves c
    rwa [hcode] at hrun
  | cmd b => exact step_of_xFetch (s := placeCode (.cmd b) s) rfl rfl rfl rfl

/-- Settles O38: a code of four bits and a byte of 16 or more are each the word of their own kind. -/
theorem placedWordRunsNext : Obligations.PlacedWordRunsNext := by
  refine fun s => ⟨fun c => ?trans, fun b hb => ?cmd⟩
  case trans =>
    rw [withFetchWord_of_tableCode (tableCode_transCode c)]
    exact step_placeCode (.trans c) s
  case cmd =>
    rw [withFetchWord_of_tableCode (tableCode_cmd hb)]
    exact step_placeCode (.cmd b) s

end Sys2Proof.Machine
